-- ==== Sys2Proof/Word.lean ====
section
/-! DEFINITION. The plain words of the machine: a byte, a 32-bit word, a lane mask, a 52-bit program counter. Bit-field helpers
are in Sys2Proof/Decode.lean and Sys2Proof/Machine/Bits.lean. -/

namespace Sys2Proof

/-- One byte (R6). -/
abbrev Byte := BitVec 8

/-- A 32-bit word: an instruction word, a scalar register, one lane of a lane register (R61). -/
abbrev Word := BitVec 32

/-- One bit for each of the 32 lanes of a warp (R40). -/
abbrev LaneMask := BitVec 32

/-- The program counter: a 52-bit byte address (R157). -/
abbrev PC := BitVec 52

/-- Sparse bytes by address, in canonical form: addresses strictly rising, no entry equal to zero (what an unlisted address
reads as; notes/assumptions/1.md). -/
abbrev Bytes := List Host.Cell

end Sys2Proof
end

