-- ==== Sys2Proof/Syntax.lean ====
section
/-! DEFINITION. Instr: one constructor for each row of spec/opcode_table.json. The first 166 rows are the instruction words of
R157 to R166 (with MX and literal words); the others are the part's indivisible steps (spec/95_what_each_step_holds.md), with
what the outside world or an order left open supplies as arguments (notes/assumptions/2.md). -/

namespace Sys2Proof

/-- Scopes (R8); the codes are those of R159. -/
inductive Scope where
  | wg | cl | die | pkg | sys
  deriving DecidableEq, Repr, Inhabited

/-- The guard of a lane instruction: pred codes 00, 01, 10, 11 (R159). -/
inductive Guard where
  | always | p0 | p1 | notP0
  deriving DecidableEq, Repr, Inhabited

/-- Condition codes of CMP and SCMP's signless part (R206). -/
inductive Cc where
  | eq | ne | lt | le | gt | ge
  deriving DecidableEq, Repr, Inhabited

/-- Condition codes of FCMP (R206). -/
inductive Fcc where
  | eq | ne | lt | le | gt | ge | un | ord
  deriving DecidableEq, Repr, Inhabited

/-- Conditions of SCMP (R181). -/
inductive Scc where
  | eq | ne | ltS | leS | gtS | geS | ltU | leU | gtU | geU
  deriving DecidableEq, Repr, Inhabited

/-- Load sizes (R166 SIZE). -/
inductive LdSize where
  | u8 | s8 | u16 | s16 | b32 | b64 | b128
  deriving DecidableEq, Repr, Inhabited

/-- Store sizes (R166 SIZE). -/
inductive StSize where
  | b8 | b16 | b32 | b64 | b128
  deriving DecidableEq, Repr, Inhabited

/-- SLD sizes (R183). -/
inductive SldSize where
  | u8 | s8 | u16 | s16 | b32 | b64
  deriving DecidableEq, Repr, Inhabited

/-- SST sizes (R183). -/
inductive SstSize where
  | b8 | b16 | b32 | b64
  deriving DecidableEq, Repr, Inhabited

/-- ATOMCAS sizes (R166). -/
inductive CasSize where
  | b32 | b64
  deriving DecidableEq, Repr, Inhabited

/-- Atomic operations (R166 AOP). -/
inductive AtomOp where
  | add | umin | umax | smin | smax | and | or | xor | xchg | fadd
  deriving DecidableEq, Repr, Inhabited

/-- The space of LD and ST: global with its scope, or private (R161 PRV). -/
inductive LdSpace where
  | global (sc : Scope) | priv
  deriving DecidableEq, Repr, Inhabited

/-- Rounding modes of CVT (R213). -/
inductive Rm where
  | rn | rz | rd | ru
  deriving DecidableEq, Repr, Inhabited

/-- Source formats of CVT (R213): the codes of R65 without N4O. -/
inductive CvtFmt where
  | f32 | bf16 | f16 | e4m3 | e5m2 | s8 | s32 | u32
  deriving DecidableEq, Repr, Inhabited

/-- NRED operations (R254). -/
inductive NredOp where
  | addI32 | addI64 | minS32 | maxS32 | minU32 | maxU32 | and | or | xor | addF32 | minF32 | maxF32 | arrive
  deriving DecidableEq, Repr, Inhabited

/-- The address and the key operands every lane memory instruction carries (R160): address register, produce key, consume key,
the optional literal offset, the guard. -/
structure LmArgs where
  addr : Fin 128
  prod : Fin 16
  cons : Fin 16
  off  : Option Word
  grd  : Guard
  deriving DecidableEq, Repr, Inhabited

/-- What a PTP message is (R332): one-step Sync with its time or two-step without, Follow_Up, Delay_Req, Delay_Resp with the time of receipt. -/
inductive PtpKind where
  | sync (t1 : Option Nat)
  | followUp (t1 : Nat)
  | delayReq
  | delayResp (t4 : Nat)
  deriving DecidableEq, Repr, Inhabited

/-- What every PTP message names (R332). -/
structure PtpHead where
  domain : Nat
  seq    : Nat
  deriving DecidableEq, Repr, Inhabited

/-- A PTP message (R332). -/
structure PtpMsg extends PtpHead where
  kind : PtpKind
  deriving DecidableEq, Repr, Inhabited

/-- The body of a fabric message that reaches or leaves this package (R319 classes 0 to 5). -/
inductive FabMsg where
  | read (tag asid va size : Nat)                                       -- class 0
  | write (tag asid va size : Nat) (be : BitVec 16) (data : BitVec 128) (psn : BitVec 4) -- class 0
  | atom (tag asid va : Nat) (aop : AtomOp) (xs : List Word)            -- class 0: one combined request (R125)
  | cas (tag asid va : Nat) (wide : Bool) (cmp new : BitVec 64)         -- class 0
  | mgmt (tag ma : Nat) (data : Option Word)                            -- class 0: a host's access to the management space (R354)
  | reply (tag : Nat) (data : BitVec 128) (psn : BitVec 4) (late : Nat) (flags : Word) -- class 1; late: the cause of a failure (R402)
  | atomReply (tag : Nat) (olds : List Word) (psn : Bool) (late : Nat) (flags : Word) -- class 1: what each contribution receives (R126)
  | notice (op : Nat) (sc : Scope)                                      -- class 1 (R327)
  | active (asid : Nat) (tgt tgthi : Word) (sc : Scope) (h : Nat) (payload : List Word) (sender senderGrid : Word) (op : Nat) -- class 2
  | splice (asid : Nat) (tgt tgthi : Word) (sc : Scope) (refs : List (Nat × Nat)) (id part parts : Nat) -- class 3 (R327): chip and operation of each
      -- reference, the sender's number for the splice, which of how many messages
  | time (m : PtpMsg)                                                   -- class 4
  | control (acked : Nat)                                               -- class 5: credits, training, maintenance; flits acknowledged
  | peer (write : Bool) (ma : Nat) (data : Word)                        -- class 5: a peer access (R355)
  | peerAnswer (ok : Bool) (data : Word)                                -- class 5: its answer
  deriving DecidableEq, Repr, Inhabited

/-- What a firmware slot of the flash presents to the ROM's checks (R359, R428, R429): the header, the header's signed bytes and
the body. -/
structure FwImage where
  readable : Bool
  header   : List Byte
  body     : List Byte
  deriving DecidableEq, Repr, Inhabited

/-- What step 4 of R353 finds and loads: the capability fuses of the part, and the boot-group fuses of R355. -/
structure Fuses where
  hbm      : BitVec 16
  clmask   : List (BitVec 16)     -- by die position
  coremask : List (BitVec 12)     -- by cluster index 16 d + c
  sliceLo  : List Word            -- by die position
  sliceHi  : List Word
  capsLink : Word
  bootmask : BitVec 16
  bridge   : Option (Fin 16)      -- the host group of a package fused as a bridge
  isolated : List (Fin 4)         -- dies that could not train a link to 8 lanes (R428 code 7)
  badStack : List (Fin 16)        -- stacks that failed training or test (R428 code 8)
  deriving DecidableEq, Repr, Inhabited

/-- A host access that the adapter delivers (R330, R354, R355): the fibre group it arrives on, a host address, a length and, for a write, the
bytes. -/
structure HostAcc where
  group : Fin 16
  addr : Nat
  len  : Nat
  data : Option (List Byte)
  deriving DecidableEq, Repr, Inhabited

/-- One constructor per row of spec/opcode_table.json. -/
inductive Instr where
  -- lane set (R200 to R227)
  | mov (d a : Fin 128) (g : Guard)
  | movLane (d : Fin 128) (g : Guard)
  | movScalar (d : Fin 128) (a : Fin 64) (g : Guard)
  | movi (d : Fin 128) (imm : BitVec 11)
  | moviLiteral (d : Fin 128) (lit : Word)
  | add (d a b : Fin 128) (g : Guard)
  | sub (d a b : Fin 128) (g : Guard)
  | mul (d a b : Fin 128) (g : Guard)
  | mulhU (d a b : Fin 128) (g : Guard)
  | mulhS (d a b : Fin 128) (g : Guard)
  | mad (d a b : Fin 128) (g : Guard)
  | and (d a b : Fin 128) (g : Guard)
  | or (d a b : Fin 128) (g : Guard)
  | xor (d a b : Fin 128) (g : Guard)
  | not (d a : Fin 128) (g : Guard)
  | shl (d a b : Fin 128) (g : Guard)
  | shr (d a b : Fin 128) (g : Guard)
  | sra (d a b : Fin 128) (g : Guard)
  | minU (d a b : Fin 128) (g : Guard)
  | minS (d a b : Fin 128) (g : Guard)
  | maxU (d a b : Fin 128) (g : Guard)
  | maxS (d a b : Fin 128) (g : Guard)
  | abs (d a : Fin 128) (g : Guard)
  | neg (d a : Fin 128) (g : Guard)
  | clz (d a : Fin 128) (g : Guard)
  | popc (d a : Fin 128) (g : Guard)
  | bfeU (d a b : Fin 128) (g : Guard)
  | bfeS (d a b : Fin 128) (g : Guard)
  | bfi (d a b : Fin 128) (g : Guard)
  | sel (d a b : Fin 128) (g : Guard) (q : Fin 4)
  | cmpU32 (cc : Cc) (d : Fin 8) (a b : Fin 128) (g : Guard)
  | cmpS32 (cc : Cc) (d : Fin 8) (a b : Fin 128) (g : Guard)
  | pand (d a b : Fin 8) (g : Guard)
  | por (d a b : Fin 8) (g : Guard)
  | pnot (d a : Fin 8) (g : Guard)
  | shflIdx (d a b : Fin 128) (g : Guard)
  | shflUp (d a b : Fin 128) (g : Guard)
  | shflDown (d a b : Fin 128) (g : Guard)
  | shflXor (d a b : Fin 128) (g : Guard)
  | voteAny (d a : Fin 8) (g : Guard)
  | voteAll (d a : Fin 8) (g : Guard)
  | voteBallot (d : Fin 128) (a : Fin 8) (g : Guard)
  | voteEq (d a : Fin 8) (g : Guard)
  | fadd (d a b : Fin 128) (g : Guard)
  | fsub (d a b : Fin 128) (g : Guard)
  | fmul (d a b : Fin 128) (g : Guard)
  | ffma (d a b : Fin 128) (g : Guard)
  | fmin (d a b : Fin 128) (g : Guard)
  | fmax (d a b : Fin 128) (g : Guard)
  | fcmp (cc : Fcc) (d : Fin 8) (a b : Fin 128) (g : Guard)
  | frcp (d a : Fin 128) (g : Guard)
  | frsq (d a : Fin 128) (g : Guard)
  | fsqrt (d a : Fin 128) (g : Guard)
  | fexp2 (d a : Fin 128) (g : Guard)
  | flog2 (d a : Fin 128) (g : Guard)
  | ftanh (d a : Fin 128) (g : Guard)
  | cvt (d a : Fin 128) (e : Fin 4) (f : CvtFmt) (g : Guard) (m : Rm)
  | dot2Bf16 (d a b : Fin 128) (g : Guard)
  | dot4Fp8 (d a b : Fin 128) (g : Guard)
  | dot8N4o (d a b : Fin 128) (g : Guard)
  | n4pack (d a b : Fin 128) (g : Guard)
  | n4unp (d a : Fin 128) (g : Guard)
  | sclx (d a b : Fin 128) (g : Guard)
  | ld (d : Fin 128) (m : LmArgs) (sz : LdSize) (sp : LdSpace)
  | st (d : Fin 128) (m : LmArgs) (sz : StSize) (sp : LdSpace)
  | lds (d : Fin 128) (m : LmArgs) (sz : LdSize) (sc : Scope)
  | sts (d : Fin 128) (m : LmArgs) (sz : StSize) (sc : Scope)
  | atom (d : Fin 128) (m : LmArgs) (op : AtomOp) (sc : Scope)
  | red (d : Fin 128) (m : LmArgs) (op : AtomOp) (sc : Scope)
  | atomcas (d : Fin 128) (m : LmArgs) (sz : CasSize) (sc : Scope)
  -- uniform set: scalar arithmetic, memory, special registers (R180 to R185)
  | smov (d a : Fin 64)
  | sadd (d a b : Fin 64)
  | ssub (d a b : Fin 64)
  | smul (d a b : Fin 64)
  | smulhU (d a b : Fin 64)
  | smulhS (d a b : Fin 64)
  | sdivu (d a b : Fin 64)
  | sremu (d a b : Fin 64)
  | sand (d a b : Fin 64)
  | sor (d a b : Fin 64)
  | sxor (d a b : Fin 64)
  | snot (d a : Fin 64)
  | sshl (d a b : Fin 64)
  | sshr (d a b : Fin 64)
  | ssra (d a b : Fin 64)
  | sminU (d a b : Fin 64)
  | sminS (d a b : Fin 64)
  | smaxU (d a b : Fin 64)
  | smaxS (d a b : Fin 64)
  | sclz (d a : Fin 64)
  | spopc (d a : Fin 64)
  | ssel (d a b : Fin 64)
  | slea (d a b : Fin 64) (n : Fin 4)
  | scmp (cc : Scc) (d a b : Fin 64)
  | smovi (d : Fin 64) (imm : BitVec 13)
  | smoviLiteral (d : Fin 64) (lit : Word)
  | sld (d a : Fin 64) (sz : SldSize) (sc : Scope) (off : Option Word)
  | sst (d a : Fin 64) (sz : SstSize) (sc : Scope) (off : Option Word)
  | srd (d : Fin 64) (n : BitVec 13)
  | swr (a : Fin 64) (n : BitVec 13)
  | emrd (d : Fin 64)
  | emwr (a : Fin 64)
  | sfmt (a : Fin 64)
  | sfmtLiteral (lit : Word)
  | sfmtrd (d : Fin 64)
  -- control flow (R186 to R199)
  | bra (off : BitVec 21)
  | brcNz (c : Fin 16) (off : BitVec 21)
  | brcZ (c : Fin 16) (off : BitVec 21)
  | brany (inv : Bool) (p : Fin 8) (off : BitVec 21)
  | brall (inv : Bool) (p : Fin 8) (off : BitVec 21)
  | call (off : BitVec 21)
  | split (inv : Bool) (p : Fin 8) (e : Fin 1024) (j : Fin 2048)
  | ret
  | join
  | snop
  | yield
  | exit
  | trap (code : Fin 64)
  | rtt
  | tfence
  | temit (a b : Fin 64)
  | time (d : Fin 64)
  -- keys, barriers, pools, messages (R228 to R257)
  | kfork (d a : Fin 16)
  | kjoin (d a b : Fin 16)
  | krel (d : Fin 16)
  | kwait (a : Fin 16) (sc : Scope)
  | kall (sc : Scope)
  | ksend (a : Fin 16) (b : Fin 64) (sc : Scope)
  | krecv (d a : Fin 64)
  | krecvTry (d a : Fin 64)
  | kqry (d : Fin 64) (a : Fin 16)
  | ksteal (d : Fin 16) (a : Fin 64) (sc : Scope)
  | binit (d : Fin 16) (a : Fin 64)
  | barr (d a : Fin 16)
  | barrLeave (d a : Fin 16)
  | bwait (d a : Fin 16) (par : Bool)
  | bqry (d : Fin 64) (a : Fin 16)
  | mcjoin (d a b : Fin 64) (pool : Fin 16)
  | mcleave (d : Fin 64) (pool : Fin 16)
  | role (d : Fin 8) (n : Fin 8)
  | mcld (x y : Fin 64) (pool : Fin 16) (k c : Fin 16) (off : Option Word)
  | amsend (x y : Fin 64) (h : Fin 16) (k c : Fin 16)
  | nred (x y : Fin 64) (op : NredOp) (k c : Fin 16) (tmo : Option Word)
  | launch (x : Fin 64) (sc : Scope) (k c : Fin 16)
  -- engines and rings (R258 to R291)
  | tcfg (x : Fin 16) (y : Fin 64) (k c : Fin 16)
  | tlda (x : Fin 16) (y : Fin 64) (k c : Fin 16) (pitch : Option Word)
  | tldb (x : Fin 64) (y : Fin 64) (k c : Fin 16) (pitch : Option Word)
  | mma (x : Fin 16) (y : Fin 64) (z : Fin 16) (k c : Fin 16) (mode : Option Word)
  | tzero (x : Fin 16) (k c : Fin 16)
  | tst (x : Fin 16) (y : Fin 64) (k c : Fin 16) (pitch : Option Word)
  | tcvt (x y : Fin 16) (k c : Fin 16) (cw : Option Word)
  | ascan (x y : Fin 16) (z : Fin 4) (k c : Fin 16)
  | cld (x : Fin 4) (y : Fin 64) (k c : Fin 16)
  | cst (x : Fin 4) (y : Fin 64) (k c : Fin 16)
  | cpyLd (x y : Fin 64) (k c : Fin 16) (off : Option Word)
  | cpySt (x y : Fin 64) (k c : Fin 16) (off : Option Word)
  | cpysLd (x y : Fin 64) (k c : Fin 16) (gp : Word)
  | cpysSt (x y : Fin 64) (k c : Fin 16) (gp : Word)
  | cpyc (x y : Fin 64) (k c : Fin 16) (off : Option Word)
  | cpyg (x y : Fin 64) (k c : Fin 16) (off : Option Word)
  | cpyx (x y : Fin 64) (k c : Fin 16) (off : Option Word)
  | rinit (x : Fin 8) (y : Fin 64)
  | rputAcq (x : Fin 8) (y : Fin 64) (k : Fin 16)
  | rputCmt (x : Fin 8) (y : Fin 64) (c : Fin 16)
  | rgetAcq (x : Fin 8) (y : Fin 64) (k : Fin 16)
  | rgetRel (x : Fin 8) (y : Fin 64) (c : Fin 16)
  -- steps of the rings, keys, memory and engines
  | ringAcquireGrant (wg : Nat) (ring : Fin 8) (consumer : Bool)
  | growGrant (wg : Nat)
  | growFail (wg : Nat)
  | operationComplete (op : Nat)
  | loadValueFixed (op : Nat)
  | engineCommandStart (op : Nat)
  | engineCommandComplete (op : Nat)
  | copyCommandComplete (op : Nat)
  | frameAllocation (asid va : Nat)
  | acbProbeReply (core asid va : Nat)
  | mappingChange (asid va : Nat) (entry : List Word) (release : Bool)
  | homeRequest (op acc : Nat)
  | atomicRequest (i : Nat)
  | combineWindowExpiry (cluster i : Nat)
  | wcbIdleDrain (core asid line : Nat)
  | responseArrival (op acc : Nat)
  | responseTimeout (op acc : Nat) (performed : Bool)
  | stealPromotion (op : Nat)
  | messageSend (msg : Nat)
  | spliceArrival (msg : Nat)
  | completionNotice (die : Fin 4) (op : Nat) (sc : Scope)
  | activeMessageArrival (msg : Nat)
  | handlerWarpStart (msg : Nat)
  | mcldArrival (op : Nat)
  | poolHoldTimeout (hold : Nat)
  | poolRead (hold : Nat)
  | poolFillLand (op : Nat)
  | nredContribution (op : Nat)
  | nredTimeout (inst : Nat)
  | timeReply (op : Nat)
  -- launch, placement, pre-emption (R292 to R308)
  | launchEntrySend (wg : Nat)
  | distributorDecision
  | launchRecordRead (src : Nat)
  | holdPlacement (grid : Nat)
  | gridRelease (grid : Nat)
  | gridCompletionSignal (grid : Nat)
  | workgroupEvict (wg : Nat)
  | workgroupRestore (wg : Nat)
  | watchdogExpiry (core : Nat)
  | starvation (warp : Nat)
  -- debug, trace, profiling (R335 to R350)
  | breakpointHit (warp : Nat) (bp : Fin 4)
  | stopDump (cluster : Nat)
  | stepEnd (cluster : Nat)
  | dbgcmdStop (cluster : Nat)
  | dbgcmdResume (cluster : Nat)
  | dbgcmdResumeLoad (cluster : Nat)
  | dbgcmdStep (cluster : Nat)
  | traceDrain (cluster : Nat)
  | stallCountOverflow (cluster entry : Nat)
  -- fabric, host, time base, links, platform
  | flitReceive (group : Fin 16) (header : BitVec 64) (crcOk : Bool) (body : FabMsg)
  | hostAccess (a : HostAcc)
  | ptpMessage (group : Fin 16) (head : PtpHead) (kind : PtpKind)
  | timelockLoss
  | centreLinkMeasure (die : Fin 4) (counts : Nat)
  | laneFailure (link : Fin 12) (lane : Fin 64)
  | linkRetrainDone (link : Fin 12)
  | frequencySwitch (die : Fin 4)
  | fibreGroupLoss (group : Fin 16) (fibre : Fin 8) (lambda : Option Nat)
  | linkTrainingDone (group : Fin 16)
  | groupTrainingTimeout (group : Fin 16)
  | tokenRegenerate (die : Fin 4) (channel : Nat)
  | powerControlTick (power : Nat) (heaviest : Fin 4)
  | dieClockGate (die : Fin 4)
  | thermalHold (die : Fin 4) (temp : Nat)
  | thermalTrip (die : Fin 4) (temp : Nat)
  | powerGood (slot0 slot1 : FwImage)
  | bringupComplete (f : Fuses)
  | firmwareTimeout
  | mgcmdPreempt (v : Word)
  | mgcmdResume (v : Word)
  | mgcmdAttest (v : Word)
  | mgcmdCommitSvnmin (v : Word)
  | pxctlGo (v : Word)
  | peerAccess (group : Fin 16) (write : Bool) (ma : Nat) (data : Word)
  | peerAccessTimeout
  | chipidWrite (v : Word)
  | lqctlWrite (q : Fin 64) (v : Word)
  | lqtailWrite (q : Fin 64) (v : Word)
  | lgctlWrite (g : Fin 16) (v : Word)
  | mgaploWrite (v : Word)
  | fladdWrite (die : Fin 4) (list : Fin 2) (v : Word)
  | trctlWrite (cluster : Nat) (v : Word)
  | trrpWrite (cluster : Nat) (v : Word)
  | stctlSpillAll (cluster : Nat) (v : Word)
  | strpWrite (cluster : Nat) (v : Word)
  | retireWrite (v : Word)
  | ecclrWrite (core : Nat) (v : Word)
  | tbloRead
  | stallCounterRead (core : Nat) (engine : Fin 6) (cause : Fin 7)
  | trdropRead (cluster : Nat)
  | stlostRead (cluster : Nat)
  | ellostRead
  | mellostRead (unit : Fin 5)
  | lllostRead
  | cecntRead (die : Fin 4)
  | registerWrite (ma : Nat) (v : Word)
  | illegalFirstWord (w : Word)
  | clusterCacheArrival (op acc : Nat)
  | stallSample (cluster : Nat)
  | peerAccessAnswer (ok : Bool) (data : Word)
  | physicalWindowAccess (die : Fin 4) (off : Nat) (data : Option Word)
  | syncInterval
  | thermalHoldLeft (die : Fin 4) (temp : Nat)
  | wavelengthRecalibration (group : Fin 16)
  | tlockLapse (group : Fin 16)
  deriving DecidableEq, Repr

end Sys2Proof
end

