-- ==== Sys2Proof/WellFormed.lean ====
section
/-! DEFINITION. The limits an instruction word's operands keep beyond the ranges of their fields (R159 to R167 and the
instructions' own descriptions). A word that breaks one is an illegal word. -/

namespace Sys2Proof

/-- The element indexes that CVT allows for a source format (R213). -/
def CvtFmt.elemOk (f : CvtFmt) (e : Fin 4) : Bool :=
  match f with
  | .f32 | .s32 | .u32 => e.val == 0
  | .bf16 | .f16 => e.val ≤ 1
  | .e4m3 | .e5m2 | .s8 => true

/-- A 64-bit scalar size needs the pair s(d), s(d+1) (R183). -/
def pairOk (wide : Bool) (d : Fin 64) : Bool := !wide || d.val ≤ 62

/-- What a well-formed instruction keeps; a step of the device has no word and is well-formed. -/
def wellFormed (i : Instr) : Bool :=
  match i with
  | .cvt _ _ e f _ _ => f.elemOk e
  | .red _ _ op _ => op != .xchg
  | .sld d a sz _ _ => a.val ≤ 62 && pairOk (sz == .b64) d
  | .sst d a sz _ _ => a.val ≤ 62 && pairOk (sz == .b64) d
  | .split _ _ e j => 1 ≤ e.val && 1 ≤ j.val
  | .time d => d.val ≤ 62
  | .kfork d _ => d.val != 15
  | .kjoin d _ _ => d.val != 15
  | .krel d => d.val != 15
  | .ksend _ b _ => b.val ≤ 62
  | .ksteal _ _ sc => sc != .wg
  | .mcld x _ _ _ _ _ => x.val ≤ 62
  | .amsend x y h _ _ => x.val ≤ 62 && y.val ≤ 56 && 1 ≤ h.val
  | .nred x _ _ _ _ _ => x.val ≤ 62
  | .launch x _ _ _ => x.val ≤ 62
  | .cpyLd x y _ _ _ | .cpySt x y _ _ _ | .cpysLd x y _ _ _ | .cpysSt x y _ _ _
  | .cpyc x y _ _ _ | .cpyg x y _ _ _ | .cpyx x y _ _ _ => x.val ≤ 62 && y.val ≤ 60
  | .rinit _ y => y.val ≤ 61
  | _ => true

/-- An instruction word's constructor; every other constructor is a step of the device. -/
def Instr.isWord (i : Instr) : Bool := i.ctorIdx < 166

end Sys2Proof
end

