-- ==== Sys2Proof/Decode.lean ====
section
/-! DEFINITION. From words to an instruction (R157 to R167, R228, R229, R258), rejecting by name, and back. Words are natural
numbers below 2^32; a field is cut out by division and remainder. `decodeTableWord` reads the opcode table's numbering. -/

namespace Sys2Proof

/-- Why a first word is no instruction (R167). `truncated`: fewer words than R157's length. -/
inductive DecodeError where
  | truncated
  | unassignedOp
  | badSub
  | badFunc
  | badField
  | badScope
  | badCond
  | badMx
  | badOperand
  deriving DecidableEq, Repr, Inhabited

/-- n bits of w from bit lo up. -/
def field (w lo n : Nat) : Nat := w / 2 ^ lo % 2 ^ n

/-- The op field of a first word, bits 30:25. -/
def opOf (w : Nat) : Nat := field w 25 6

/-- Words in the instruction whose first word is w (R157). -/
def frameLen (w : Nat) : Nat :=
  let op := opOf w
  if field w 31 1 = 0 then
    if 0x38 ≤ op ∧ op ≤ 0x3E then 2 + field w 2 1
    else if op = 0x02 ∧ field w 11 7 = 1 then 2
    else 1
  else
    if op = 0x02 ∧ field w 13 6 = 1 then 2
    else if op = 0x03 ∨ op = 0x04 then 1 + field w 6 1
    else if op = 0x07 ∧ field w 0 7 = 0x03 then 2
    else if 0x28 ≤ op ∧ op ≤ 0x3D then 1 + field w 8 1
    else 1

/-! ### Code tables -/

/-- Scope codes (R159). -/
def Scope.code : Scope → Nat
  | .wg => 1 | .cl => 2 | .die => 3 | .pkg => 4 | .sys => 5

def Scope.ofCode (n : Nat) : Option Scope :=
  match n with
  | 1 => some .wg | 2 => some .cl | 3 => some .die | 4 => some .pkg | 5 => some .sys
  | _ => none

/-- pred codes (R159). -/
def Guard.code : Guard → Nat
  | .always => 0 | .p0 => 1 | .p1 => 2 | .notP0 => 3

def Guard.ofCode (n : Nat) : Guard :=
  match n with
  | 1 => .p0 | 2 => .p1 | 3 => .notP0 | _ => .always

/-- CMP condition codes (R206). -/
def Cc.code : Cc → Nat
  | .eq => 0 | .ne => 1 | .lt => 2 | .le => 3 | .gt => 4 | .ge => 5

def Cc.ofCode (n : Nat) : Option Cc :=
  match n with
  | 0 => some .eq | 1 => some .ne | 2 => some .lt | 3 => some .le | 4 => some .gt | 5 => some .ge
  | _ => none

/-- FCMP condition codes (R206). -/
def Fcc.code : Fcc → Nat
  | .eq => 0 | .ne => 1 | .lt => 2 | .le => 3 | .gt => 4 | .ge => 5 | .un => 6 | .ord => 7

def Fcc.ofCode (n : Nat) : Option Fcc :=
  match n with
  | 0 => some .eq | 1 => some .ne | 2 => some .lt | 3 => some .le | 4 => some .gt | 5 => some .ge
  | 6 => some .un | 7 => some .ord
  | _ => none

/-- SCMP conditions: func 0x20 to 0x29 less 0x20 (R165). -/
def Scc.code : Scc → Nat
  | .eq => 0 | .ne => 1 | .ltS => 2 | .leS => 3 | .gtS => 4 | .geS => 5 | .ltU => 6 | .leU => 7 | .gtU => 8 | .geU => 9

def Scc.ofCode (n : Nat) : Option Scc :=
  match n with
  | 0 => some .eq | 1 => some .ne | 2 => some .ltS | 3 => some .leS | 4 => some .gtS | 5 => some .geS
  | 6 => some .ltU | 7 => some .leU | 8 => some .gtU | 9 => some .geU
  | _ => none

/-- Load sizes (R166). -/
def LdSize.code : LdSize → Nat
  | .u8 => 0 | .s8 => 1 | .u16 => 2 | .s16 => 3 | .b32 => 4 | .b64 => 5 | .b128 => 6

def LdSize.ofCode (n : Nat) : Option LdSize :=
  match n with
  | 0 => some .u8 | 1 => some .s8 | 2 => some .u16 | 3 => some .s16 | 4 => some .b32 | 5 => some .b64 | 6 => some .b128
  | _ => none

/-- Store sizes (R166). -/
def StSize.code : StSize → Nat
  | .b8 => 0 | .b16 => 2 | .b32 => 4 | .b64 => 5 | .b128 => 6

def StSize.ofCode (n : Nat) : Option StSize :=
  match n with
  | 0 => some .b8 | 2 => some .b16 | 4 => some .b32 | 5 => some .b64 | 6 => some .b128
  | _ => none

/-- SLD sizes: bits 2:0 of func (R165). -/
def SldSize.code : SldSize → Nat
  | .u8 => 0 | .s8 => 1 | .u16 => 2 | .s16 => 3 | .b32 => 4 | .b64 => 5

def SldSize.ofCode (n : Nat) : Option SldSize :=
  match n with
  | 0 => some .u8 | 1 => some .s8 | 2 => some .u16 | 3 => some .s16 | 4 => some .b32 | 5 => some .b64
  | _ => none

/-- SST sizes: as SLD, without the sign forms (R183). -/
def SstSize.code : SstSize → Nat
  | .b8 => 0 | .b16 => 2 | .b32 => 4 | .b64 => 5

def SstSize.ofCode (n : Nat) : Option SstSize :=
  match n with
  | 0 => some .b8 | 2 => some .b16 | 4 => some .b32 | 5 => some .b64
  | _ => none

/-- ATOMCAS sizes (R166). -/
def CasSize.code : CasSize → Nat
  | .b32 => 4 | .b64 => 5

def CasSize.ofCode (n : Nat) : Option CasSize :=
  match n with
  | 4 => some .b32 | 5 => some .b64 | _ => none

/-- AOP codes (R166). -/
def AtomOp.code : AtomOp → Nat
  | .add => 0 | .umin => 1 | .umax => 2 | .smin => 3 | .smax => 4 | .and => 5 | .or => 6 | .xor => 7 | .xchg => 8 | .fadd => 9

def AtomOp.ofCode (n : Nat) : Option AtomOp :=
  match n with
  | 0 => some .add | 1 => some .umin | 2 => some .umax | 3 => some .smin | 4 => some .smax | 5 => some .and
  | 6 => some .or | 7 => some .xor | 8 => some .xchg | 9 => some .fadd
  | _ => none

/-- Rounding modes of CVT (R213). -/
def Rm.code : Rm → Nat
  | .rn => 0 | .rz => 1 | .rd => 2 | .ru => 3

def Rm.ofCode (n : Nat) : Rm :=
  match n with
  | 1 => .rz | 2 => .rd | 3 => .ru | _ => .rn

/-- Source formats of CVT (R65, R213). -/
def CvtFmt.code : CvtFmt → Nat
  | .f32 => 0 | .bf16 => 1 | .f16 => 2 | .e4m3 => 3 | .e5m2 => 4 | .s8 => 5 | .s32 => 7 | .u32 => 8

def CvtFmt.ofCode (n : Nat) : Option CvtFmt :=
  match n with
  | 0 => some .f32 | 1 => some .bf16 | 2 => some .f16 | 3 => some .e4m3 | 4 => some .e5m2 | 5 => some .s8
  | 7 => some .s32 | 8 => some .u32
  | _ => none

/-- NRED operations (R254). -/
def NredOp.code : NredOp → Nat
  | .addI32 => 0 | .addI64 => 1 | .minS32 => 2 | .maxS32 => 3 | .minU32 => 4 | .maxU32 => 5 | .and => 6 | .or => 7
  | .xor => 8 | .addF32 => 9 | .minF32 => 10 | .maxF32 => 11 | .arrive => 12

def NredOp.ofCode (n : Nat) : Option NredOp :=
  match n with
  | 0 => some .addI32 | 1 => some .addI64 | 2 => some .minS32 | 3 => some .maxS32 | 4 => some .minU32
  | 5 => some .maxU32 | 6 => some .and | 7 => some .or | 8 => some .xor | 9 => some .addF32 | 10 => some .minF32
  | 11 => some .maxF32 | 12 => some .arrive
  | _ => none

/-! ### Field readers -/

abbrev Dec := Except DecodeError Instr

/-- The instruction, if the fields it does not use hold 0 (R159). -/
def chk (ok : Bool) (i : Instr) : Dec := if ok then .ok i else .error .badField

def fin4 (n : Nat) : Fin 4 := Fin.ofNat 4 n
def fin8 (n : Nat) : Fin 8 := Fin.ofNat 8 n
def fin16 (n : Nat) : Fin 16 := Fin.ofNat 16 n
def fin64 (n : Nat) : Fin 64 := Fin.ofNat 64 n
def fin128 (n : Nat) : Fin 128 := Fin.ofNat 128 n

/-- The scope at bit lo (R159), or the word is illegal. -/
def withScope (w lo : Nat) (k : Scope → Dec) : Dec :=
  match Scope.ofCode (field w lo 3) with
  | some sc => k sc
  | none => .error .badScope

/-- LR with three lane registers. -/
def lr3 (w : Nat) (c : Fin 128 → Fin 128 → Fin 128 → Guard → Instr) : Dec :=
  .ok (c (fin128 (field w 18 7)) (fin128 (field w 11 7)) (fin128 (field w 4 7)) (Guard.ofCode (field w 2 2)))

/-- LR with two lane registers; b is 0. -/
def lr2 (w : Nat) (c : Fin 128 → Fin 128 → Guard → Instr) : Dec :=
  chk (field w 4 7 == 0) (c (fin128 (field w 18 7)) (fin128 (field w 11 7)) (Guard.ofCode (field w 2 2)))

/-- LR with three predicates in bits 2:0 of d, a, b (R207). -/
def lrP3 (w : Nat) (c : Fin 8 → Fin 8 → Fin 8 → Guard → Instr) : Dec :=
  chk (field w 21 4 == 0 && field w 14 4 == 0 && field w 7 4 == 0)
    (c (fin8 (field w 18 3)) (fin8 (field w 11 3)) (fin8 (field w 4 3)) (Guard.ofCode (field w 2 2)))

/-- LR with two predicates; b is 0. -/
def lrP2 (w : Nat) (c : Fin 8 → Fin 8 → Guard → Instr) : Dec :=
  chk (field w 21 4 == 0 && field w 14 4 == 0 && field w 4 7 == 0)
    (c (fin8 (field w 18 3)) (fin8 (field w 11 3)) (Guard.ofCode (field w 2 2)))

/-- An LR instruction whose sub field is 00. -/
def sub0 (w : Nat) (d : Dec) : Dec := if field w 0 2 = 0 then d else .error .badSub

/-- An LR instruction with sub 00 and 01. -/
def sub01 (w : Nat) (d0 d1 : Dec) : Dec :=
  match field w 0 2 with
  | 0 => d0
  | 1 => d1
  | _ => .error .badSub

/-- CMP's predicate destination and condition (R206). -/
def cmpD (w : Nat) (c : Cc → Fin 8 → Fin 128 → Fin 128 → Guard → Instr) : Dec :=
  match Cc.ofCode (field w 21 4) with
  | some cc => .ok (c cc (fin8 (field w 18 3)) (fin128 (field w 11 7)) (fin128 (field w 4 7)) (Guard.ofCode (field w 2 2)))
  | none => .error .badCond

/-- The LM first word's operands (R160); x2 is the literal. -/
def lmArgs (w x2 : Nat) : LmArgs :=
  { addr := fin128 (field w 11 7), prod := fin16 (field w 7 4), cons := fin16 (field w 3 4)
    off := if field w 2 1 = 1 then some (BitVec.ofNat 32 x2) else none
    grd := Guard.ofCode (field w 0 2) }

/-- The MX word's scope for an instruction that takes no PRV (R161, R166). -/
def mxScope (mx : Nat) (k : Scope → Dec) : Dec :=
  if field mx 28 1 = 0 ∧ field mx 0 20 = 0 then withScope mx 29 k else .error .badMx

/-- The MX word's space for LD and ST: PRV only with SCOPE 1 (R161). -/
def mxSpace (mx : Nat) (k : LdSpace → Dec) : Dec :=
  if field mx 0 20 = 0 then
    if field mx 28 1 = 1 then (if field mx 29 3 = 1 then k .priv else .error .badMx)
    else withScope mx 29 fun sc => k (.global sc)
  else .error .badMx

/-- The MX word's SIZE, AOP being 0. -/
def mxSize {α : Type} (mx : Nat) (f : Nat → Option α) (k : α → Dec) : Dec :=
  if field mx 20 4 = 0 then
    match f (field mx 24 4) with
    | some z => k z
    | none => .error .badMx
  else .error .badMx

/-- The MX word's AOP, SIZE being 4. -/
def mxAop (mx : Nat) (k : AtomOp → Dec) : Dec :=
  if field mx 24 4 = 4 then
    match AtomOp.ofCode (field mx 20 4) with
    | some z => k z
    | none => .error .badMx
  else .error .badMx

/-- The word with bit 31 = 0 (R163). -/
def decodeLane (w x1 x2 : Nat) : Dec :=
  let d := fin128 (field w 18 7)
  let g := Guard.ofCode (field w 2 2)
  match opOf w with
  | 0x01 =>
    match field w 0 2 with
    | 0 => lr2 w .mov
    | 1 => chk (field w 4 14 == 0) (.movLane d g)
    | 2 => chk (field w 4 7 == 0 && field w 17 1 == 0) (.movScalar d (fin64 (field w 11 6)) g)
    | _ => .error .badSub
  | 0x02 =>
    match field w 11 7 with
    | 0 => .ok (.movi d (BitVec.ofNat 11 (field w 0 11)))
    | 1 => chk (field w 0 11 == 0) (.moviLiteral d (BitVec.ofNat 32 x1))
    | _ => .error .badField
  | 0x03 => sub0 w (lr3 w .add)
  | 0x04 => sub0 w (lr3 w .sub)
  | 0x05 => sub0 w (lr3 w .mul)
  | 0x06 => sub01 w (lr3 w .mulhU) (lr3 w .mulhS)
  | 0x07 => sub0 w (lr3 w .mad)
  | 0x08 => sub0 w (lr3 w .and)
  | 0x09 => sub0 w (lr3 w .or)
  | 0x0A => sub0 w (lr3 w .xor)
  | 0x0B => sub0 w (lr2 w .not)
  | 0x0C => sub0 w (lr3 w .shl)
  | 0x0D => sub0 w (lr3 w .shr)
  | 0x0E => sub0 w (lr3 w .sra)
  | 0x0F => sub01 w (lr3 w .minU) (lr3 w .minS)
  | 0x10 => sub01 w (lr3 w .maxU) (lr3 w .maxS)
  | 0x11 => sub0 w (lr2 w .abs)
  | 0x12 => sub0 w (lr2 w .neg)
  | 0x13 => sub0 w (lr2 w .clz)
  | 0x14 => sub0 w (lr2 w .popc)
  | 0x15 => sub01 w (lr3 w .bfeU) (lr3 w .bfeS)
  | 0x16 => sub0 w (lr3 w .bfi)
  | 0x17 => lr3 w fun d a b g => .sel d a b g (fin4 (field w 0 2))
  | 0x18 => sub01 w (cmpD w .cmpU32) (cmpD w .cmpS32)
  | 0x19 => sub0 w (lrP3 w .pand)
  | 0x1A => sub0 w (lrP3 w .por)
  | 0x1B => sub0 w (lrP2 w .pnot)
  | 0x1C =>
    match field w 0 2 with
    | 0 => lr3 w .shflIdx
    | 1 => lr3 w .shflUp
    | 2 => lr3 w .shflDown
    | _ => lr3 w .shflXor
  | 0x1D =>
    match field w 0 2 with
    | 0 => lrP2 w .voteAny
    | 1 => lrP2 w .voteAll
    | 2 => chk (field w 14 4 == 0 && field w 4 7 == 0) (.voteBallot d (fin8 (field w 11 3)) g)
    | _ => lrP2 w .voteEq
  | 0x20 => sub0 w (lr3 w .fadd)
  | 0x21 => sub0 w (lr3 w .fsub)
  | 0x22 => sub0 w (lr3 w .fmul)
  | 0x23 => sub0 w (lr3 w .ffma)
  | 0x24 => sub0 w (lr3 w .fmin)
  | 0x25 => sub0 w (lr3 w .fmax)
  | 0x26 =>
    sub0 w (match Fcc.ofCode (field w 21 4) with
      | some cc => .ok (.fcmp cc (fin8 (field w 18 3)) (fin128 (field w 11 7)) (fin128 (field w 4 7)) g)
      | none => .error .badCond)
  | 0x27 => sub0 w (lr2 w .frcp)
  | 0x28 => sub0 w (lr2 w .frsq)
  | 0x29 => sub0 w (lr2 w .fsqrt)
  | 0x2A => sub0 w (lr2 w .fexp2)
  | 0x2B => sub0 w (lr2 w .flog2)
  | 0x2C => sub0 w (lr2 w .ftanh)
  | 0x2D =>
    match CvtFmt.ofCode (field w 4 4) with
    | some f =>
      chk (field w 10 1 == 0) (.cvt d (fin128 (field w 11 7)) (fin4 (field w 8 2)) f g (Rm.ofCode (field w 0 2)))
    | none => .error .badField
  | 0x2E => sub0 w (lr3 w .dot2Bf16)
  | 0x2F => sub0 w (lr3 w .dot4Fp8)
  | 0x30 => sub0 w (lr3 w .dot8N4o)
  | 0x31 => sub0 w (lr3 w .n4pack)
  | 0x32 => sub0 w (lr2 w .n4unp)
  | 0x33 => sub0 w (lr3 w .sclx)
  | 0x38 => mxSize x1 LdSize.ofCode fun z => mxSpace x1 fun sp => .ok (.ld d (lmArgs w x2) z sp)
  | 0x39 => mxSize x1 StSize.ofCode fun z => mxSpace x1 fun sp => .ok (.st d (lmArgs w x2) z sp)
  | 0x3A => mxSize x1 LdSize.ofCode fun z => mxScope x1 fun sc => .ok (.lds d (lmArgs w x2) z sc)
  | 0x3B => mxSize x1 StSize.ofCode fun z => mxScope x1 fun sc => .ok (.sts d (lmArgs w x2) z sc)
  | 0x3C => mxAop x1 fun o => mxScope x1 fun sc => .ok (.atom d (lmArgs w x2) o sc)
  | 0x3D => mxAop x1 fun o => mxScope x1 fun sc => .ok (.red d (lmArgs w x2) o sc)
  | 0x3E => mxSize x1 CasSize.ofCode fun z => mxScope x1 fun sc => .ok (.atomcas d (lmArgs w x2) z sc)
  | _ => .error .unassignedOp

/-- The scalar ALU of uniform op 0x01 (R165). -/
def decodeScalarAlu (w : Nat) : Dec :=
  let d := fin64 (field w 19 6)
  let a := fin64 (field w 13 6)
  let b := fin64 (field w 7 6)
  let b0 := field w 7 6 == 0
  match field w 0 7 with
  | 0x00 => chk b0 (.smov d a)
  | 0x01 => .ok (.sadd d a b)
  | 0x02 => .ok (.ssub d a b)
  | 0x03 => .ok (.smul d a b)
  | 0x04 => .ok (.smulhU d a b)
  | 0x05 => .ok (.smulhS d a b)
  | 0x06 => .ok (.sdivu d a b)
  | 0x07 => .ok (.sremu d a b)
  | 0x08 => .ok (.sand d a b)
  | 0x09 => .ok (.sor d a b)
  | 0x0A => .ok (.sxor d a b)
  | 0x0B => chk b0 (.snot d a)
  | 0x0C => .ok (.sshl d a b)
  | 0x0D => .ok (.sshr d a b)
  | 0x0E => .ok (.ssra d a b)
  | 0x0F => .ok (.sminU d a b)
  | 0x10 => .ok (.sminS d a b)
  | 0x11 => .ok (.smaxU d a b)
  | 0x12 => .ok (.smaxS d a b)
  | 0x13 => chk b0 (.sclz d a)
  | 0x14 => chk b0 (.spopc d a)
  | 0x16 => .ok (.ssel d a b)
  | _ =>
    if field w 2 5 = 6 then .ok (.slea d a b (fin4 (field w 0 2)))
    else if field w 4 3 = 2 then
      match Scc.ofCode (field w 0 4) with
      | some cc => .ok (.scmp cc d a b)
      | none => .error .badFunc
    else .error .badFunc

/-- Mask and format, uniform op 0x07 (R165). -/
def decodeMaskFormat (w x1 : Nat) : Dec :=
  let d := fin64 (field w 19 6)
  let a := fin64 (field w 13 6)
  match field w 0 7 with
  | 0x00 => chk (field w 7 12 == 0) (.emrd d)
  | 0x01 => chk (field w 19 6 == 0 && field w 7 6 == 0) (.emwr a)
  | 0x02 => chk (field w 19 6 == 0 && field w 7 6 == 0) (.sfmt a)
  | 0x03 => chk (field w 7 18 == 0) (.sfmtLiteral (BitVec.ofNat 32 x1))
  | 0x04 => chk (field w 7 12 == 0) (.sfmtrd d)
  | _ => .error .badFunc

/-- System, uniform op 0x10 (R165). -/
def decodeSystem (w : Nat) : Dec :=
  match field w 0 7 with
  | 0x00 => chk (field w 7 18 == 0) .snop
  | 0x01 => chk (field w 7 18 == 0) .yield
  | 0x02 => chk (field w 7 18 == 0) .exit
  | 0x03 => chk (field w 13 12 == 0) (.trap (fin64 (field w 7 6)))
  | 0x04 => chk (field w 7 18 == 0) .rtt
  | 0x05 => chk (field w 7 18 == 0) .tfence
  | 0x06 => chk (field w 19 6 == 0) (.temit (fin64 (field w 13 6)) (fin64 (field w 7 6)))
  | 0x07 => chk (field w 7 12 == 0) (.time (fin64 (field w 19 6)))
  | _ => .error .badFunc

/-- SLD and SST (R165). -/
def decodeScalarMem {α : Type} (w x1 : Nat) (f : Nat → Option α) (c : Fin 64 → Fin 64 → α → Scope → Option Word → Instr) :
    Dec :=
  match f (field w 0 3) with
  | some z =>
    withScope w 3 fun sc =>
      chk (field w 7 6 == 0)
        (c (fin64 (field w 19 6)) (fin64 (field w 13 6)) z sc
          (if field w 6 1 = 1 then some (BitVec.ofNat 32 x1) else none))
  | none => .error .badFunc

/-- The UK instructions (R228). -/
def decodeUk (w : Nat) : Dec :=
  let d := fin64 (field w 19 6)
  let a := fin64 (field w 13 6)
  let b := fin64 (field w 7 6)
  let dk := fin16 (field w 19 4)
  let ak := fin16 (field w 13 4)
  let bk := fin16 (field w 7 4)
  let dz := field w 19 6 == 0
  let az := field w 13 6 == 0
  let bz := field w 7 6 == 0
  let dKey := field w 23 2 == 0
  let aKey := field w 17 2 == 0
  let bKey := field w 11 2 == 0
  let fz := field w 3 4 == 0
  let sz := field w 0 3 == 0
  match opOf w with
  | 0x18 => chk (dKey && aKey && bz && fz && sz) (.kfork dk ak)
  | 0x19 => chk (dKey && aKey && bKey && fz && sz) (.kjoin dk ak bk)
  | 0x1A => chk (dKey && az && bz && fz && sz) (.krel dk)
  | 0x1B => withScope w 0 fun sc => chk (dz && aKey && bz && fz) (.kwait ak sc)
  | 0x1C => withScope w 0 fun sc => chk (dz && az && bz && fz) (.kall sc)
  | 0x1D => withScope w 0 fun sc => chk (dz && aKey && fz) (.ksend ak b sc)
  | 0x1E =>
    match field w 3 4 with
    | 0 => chk (bz && sz) (.krecv d a)
    | 1 => chk (bz && sz) (.krecvTry d a)
    | _ => .error .badFunc
  | 0x1F => chk (aKey && bz && fz && sz) (.kqry d ak)
  | 0x20 => withScope w 0 fun sc => chk (dKey && bz && fz) (.ksteal dk a sc)
  | 0x21 => chk (dKey && bz && fz && sz) (.binit dk a)
  | 0x22 =>
    match field w 3 4 with
    | 0 => chk (dKey && aKey && bz && sz) (.barr dk ak)
    | 1 => chk (dKey && aKey && bz && sz) (.barrLeave dk ak)
    | _ => .error .badFunc
  | 0x23 => chk (dKey && aKey && bz && sz && field w 4 3 == 0) (.bwait dk ak (field w 3 1 == 1))
  | 0x24 => chk (aKey && bz && fz && sz) (.bqry d ak)
  | 0x25 => chk sz (.mcjoin d a b (fin16 (field w 3 4)))
  | 0x26 => chk (az && bz && sz) (.mcleave d (fin16 (field w 3 4)))
  | 0x27 => chk (field w 22 3 == 0 && az && field w 10 3 == 0 && fz && sz) (.role (fin8 (field w 19 3)) (fin8 (field w 7 3)))
  | _ => .error .unassignedOp

/-- The UE instructions (R229, R258); x1 is the literal. -/
def decodeUe (w x1 : Nat) : Dec :=
  let x := fin64 (field w 19 6)
  let y := fin64 (field w 13 6)
  let xt := fin16 (field w 19 4)
  let xr := fin8 (field w 19 3)
  let yt := fin16 (field w 13 4)
  let z := fin16 (field w 9 4)
  let k := fin16 (field w 4 4)
  let c := fin16 (field w 0 4)
  let lit : Option Word := if field w 8 1 = 1 then some (BitVec.ofNat 32 x1) else none
  let l0 := field w 8 1 == 0
  let zz := field w 9 4 == 0
  let xTile := field w 23 2 == 0
  let yTile := field w 17 2 == 0
  let xRing := field w 22 3 == 0
  let kNull := field w 4 4 == 15
  let cNull := field w 0 4 == 15
  match opOf w with
  | 0x28 => .ok (.mcld x y z k c lit)
  | 0x29 => chk l0 (.amsend x y z k c)
  | 0x2A =>
    match NredOp.ofCode (field w 9 4) with
    | some o => .ok (.nred x y o k c lit)
    | none => .error .badField
  | 0x2B => withScope w 13 fun sc => chk (field w 16 3 == 0 && zz && l0) (.launch x sc k c)
  | 0x2C => chk (xTile && zz && l0) (.tcfg xt y k c)
  | 0x2D => chk (xTile && zz) (.tlda xt y k c lit)
  | 0x2E => chk zz (.tldb x y k c lit)
  | 0x2F => chk xTile (.mma xt y z k c lit)
  | 0x30 => chk (xTile && field w 13 6 == 0 && zz && l0) (.tzero xt k c)
  | 0x31 => chk (xTile && zz) (.tst xt y k c lit)
  | 0x32 => chk (xTile && yTile && zz) (.tcvt xt yt k c lit)
  | 0x33 => chk (xTile && yTile && field w 11 2 == 0 && l0) (.ascan xt yt (fin4 (field w 9 2)) k c)
  | 0x34 => chk (field w 21 4 == 0 && zz && l0) (.cld (fin4 (field w 19 2)) y k c)
  | 0x35 => chk (field w 21 4 == 0 && zz && l0) (.cst (fin4 (field w 19 2)) y k c)
  | 0x36 =>
    match field w 9 4 with
    | 0 => .ok (.cpyLd x y k c lit)
    | 1 => .ok (.cpySt x y k c lit)
    | _ => .error .badField
  | 0x37 =>
    match field w 9 4 with
    | 0 => chk (!l0) (.cpysLd x y k c (BitVec.ofNat 32 x1))
    | 1 => chk (!l0) (.cpysSt x y k c (BitVec.ofNat 32 x1))
    | _ => .error .badField
  | 0x38 => chk zz (.cpyc x y k c lit)
  | 0x39 => chk zz (.cpyg x y k c lit)
  | 0x3A => chk zz (.cpyx x y k c lit)
  | 0x3B => chk (xRing && zz && l0 && kNull && cNull) (.rinit xr y)
  | 0x3C =>
    match field w 9 4 with
    | 0 => chk (xRing && l0 && cNull) (.rputAcq xr y k)
    | 1 => chk (xRing && l0 && kNull) (.rputCmt xr y c)
    | _ => .error .badField
  | 0x3D =>
    match field w 9 4 with
    | 0 => chk (xRing && l0 && cNull) (.rgetAcq xr y k)
    | 1 => chk (xRing && l0 && kNull) (.rgetRel xr y c)
    | _ => .error .badField
  | _ => .error .unassignedOp

/-- The word with bit 31 = 1 (R164). -/
def decodeUniform (w x1 : Nat) : Dec :=
  let off := BitVec.ofNat 21 (field w 0 21)
  let p := fin8 (field w 21 3)
  let inv := field w 24 1 == 1
  match opOf w with
  | 0x01 => decodeScalarAlu w
  | 0x02 =>
    match field w 13 6 with
    | 0 => .ok (.smovi (fin64 (field w 19 6)) (BitVec.ofNat 13 (field w 0 13)))
    | 1 => chk (field w 0 13 == 0) (.smoviLiteral (fin64 (field w 19 6)) (BitVec.ofNat 32 x1))
    | _ => .error .badField
  | 0x03 => decodeScalarMem w x1 SldSize.ofCode .sld
  | 0x04 => decodeScalarMem w x1 SstSize.ofCode .sst
  | 0x05 => chk (field w 13 6 == 0) (.srd (fin64 (field w 19 6)) (BitVec.ofNat 13 (field w 0 13)))
  | 0x06 => chk (field w 19 6 == 0) (.swr (fin64 (field w 13 6)) (BitVec.ofNat 13 (field w 0 13)))
  | 0x07 => decodeMaskFormat w x1
  | 0x08 => if field w 21 4 = 0 then .ok (.bra off) else .error .badCond
  | 0x09 => .ok (.brcNz (fin16 (field w 21 4)) off)
  | 0x0A => .ok (.brcZ (fin16 (field w 21 4)) off)
  | 0x0B => .ok (.brany inv p off)
  | 0x0C => .ok (.brall inv p off)
  | 0x0D => if field w 21 4 = 0 then .ok (.call off) else .error .badCond
  | 0x0E => .ok (.split inv p (Fin.ofNat 1024 (field w 11 10)) (Fin.ofNat 2048 (field w 0 11)))
  | 0x0F =>
    match field w 0 7 with
    | 0x00 => chk (field w 7 18 == 0) .ret
    | 0x01 => chk (field w 7 18 == 0) .join
    | _ => .error .badFunc
  | 0x10 => decodeSystem w
  | 0x3E => .error .unassignedOp
  | 0x3F => .error .unassignedOp
  | op => if 0x18 ≤ op ∧ op ≤ 0x27 then decodeUk w else if 0x28 ≤ op then decodeUe w x1 else .error .unassignedOp

/-- The instruction whose first word is w and whose following words are x1 and x2, and whether its operands keep the limits of
WellFormed. -/
def decodeFirst (w x1 x2 : Nat) : Dec :=
  match (if field w 31 1 = 0 then decodeLane w x1 x2 else decodeUniform w x1) with
  | .ok i => if wellFormed i then .ok i else .error .badOperand
  | .error e => .error e

/-- The instruction at the head of a list of words. -/
def decodeWords (ws : List Nat) : Dec :=
  match ws with
  | [] => .error .truncated
  | w :: rest => if rest.length + 1 < frameLen w then .error .truncated else decodeFirst w (rest.getD 0 0) (rest.getD 1 0)

/-! ### Bytes -/

/-- Little-endian words of a byte list (R6). -/
def wordsOfBytes : List Byte → List Nat
  | b0 :: b1 :: b2 :: b3 :: rest =>
    (b0.toNat + 2 ^ 8 * b1.toNat + 2 ^ 16 * b2.toNat + 2 ^ 24 * b3.toNat) :: wordsOfBytes rest
  | _ => []

/-- The four bytes of a word, least significant first (R6). -/
def bytesOfWord (w : Nat) : List Byte :=
  [BitVec.ofNat 8 w, BitVec.ofNat 8 (w / 2 ^ 8), BitVec.ofNat 8 (w / 2 ^ 16), BitVec.ofNat 8 (w / 2 ^ 24)]

def bytesOfWords (ws : List Nat) : List Byte := ws.flatMap bytesOfWord

/-- The instruction at the head of a list of bytes, and the bytes after it. -/
def decodeBytes (bs : List Byte) : Except DecodeError (Instr × List Byte) :=
  let ws := wordsOfBytes bs
  match decodeWords ws with
  | .ok i => .ok (i, bs.drop (4 * frameLen (ws.headD 0)))
  | .error e => .error e

/-- The words of a table word: word k is bits 32 k + 31 to 32 k of w; the longest instruction has three. -/
def tableWords (nbits w : Nat) : List Nat :=
  let w := w % 2 ^ nbits
  [field w 0 32, field w 32 32, field w 64 32]

/-- What the decoder reads from an instruction whose bits are w, numbered as the opcode table numbers them. -/
def decodeTableWord (nbits w : Nat) : Option Instr :=
  match decodeBytes (bytesOfWords (tableWords nbits w)) with
  | .ok (i, _) => some i
  | .error _ => none

/-! ### The encoder -/

/-- An LR first word (R160). -/
def encLr (op d a b g sub : Nat) : Nat := op * 2 ^ 25 + d * 2 ^ 18 + a * 2 ^ 11 + b * 2 ^ 4 + g * 2 ^ 2 + sub

/-- An LM first word (R160). -/
def encLm (op d : Nat) (m : LmArgs) : Nat :=
  op * 2 ^ 25 + d * 2 ^ 18 + m.addr * 2 ^ 11 + m.prod * 2 ^ 7 + m.cons * 2 ^ 3 + m.off.isSome.toNat * 2 ^ 2 + m.grd.code

/-- An MX word (R161). -/
def encMx (sc prv size aop : Nat) : Nat := sc * 2 ^ 29 + prv * 2 ^ 28 + size * 2 ^ 24 + aop * 2 ^ 20

/-- SCOPE and PRV of LD and ST. -/
def encMxSpace (sp : LdSpace) (size : Nat) : Nat :=
  match sp with
  | .priv => encMx 1 1 size 0
  | .global sc => encMx sc.code 0 size 0

/-- An LM instruction's words: first word, MX word, literal. -/
def encLmWords (op d : Nat) (m : LmArgs) (mx : Nat) : List Nat :=
  encLm op d m :: mx :: (m.off.map BitVec.toNat).toList

/-- A UR or UK first word (R162): the func field is bits 6:0. -/
def encUr (op d a b func : Nat) : Nat := 2 ^ 31 + op * 2 ^ 25 + d * 2 ^ 19 + a * 2 ^ 13 + b * 2 ^ 7 + func

/-- A UI first word (R162). -/
def encUi (op d a imm : Nat) : Nat := 2 ^ 31 + op * 2 ^ 25 + d * 2 ^ 19 + a * 2 ^ 13 + imm

/-- A UB word (R162). -/
def encUb (op cond off : Nat) : Nat := 2 ^ 31 + op * 2 ^ 25 + cond * 2 ^ 21 + off

/-- A UE first word and its literal (R162). -/
def encUe (op x y z k c : Nat) (lit : Option Word) : List Nat :=
  (2 ^ 31 + op * 2 ^ 25 + x * 2 ^ 19 + y * 2 ^ 13 + z * 2 ^ 9 + lit.isSome.toNat * 2 ^ 8 + k * 2 ^ 4 + c) ::
    (lit.map BitVec.toNat).toList

/-- The words of an instruction word's instruction; a step of the device has none. -/
def encode (i : Instr) : List Nat :=
  match i with
  | .mov d a g => [encLr 0x01 d a 0 g.code 0]
  | .movLane d g => [encLr 0x01 d 0 0 g.code 1]
  | .movScalar d a g => [encLr 0x01 d a 0 g.code 2]
  | .movi d imm => [0x02 * 2 ^ 25 + d * 2 ^ 18 + imm.toNat]
  | .moviLiteral d lit => [0x02 * 2 ^ 25 + d * 2 ^ 18 + 2 ^ 11, lit.toNat]
  | .add d a b g => [encLr 0x03 d a b g.code 0]
  | .sub d a b g => [encLr 0x04 d a b g.code 0]
  | .mul d a b g => [encLr 0x05 d a b g.code 0]
  | .mulhU d a b g => [encLr 0x06 d a b g.code 0]
  | .mulhS d a b g => [encLr 0x06 d a b g.code 1]
  | .mad d a b g => [encLr 0x07 d a b g.code 0]
  | .and d a b g => [encLr 0x08 d a b g.code 0]
  | .or d a b g => [encLr 0x09 d a b g.code 0]
  | .xor d a b g => [encLr 0x0A d a b g.code 0]
  | .not d a g => [encLr 0x0B d a 0 g.code 0]
  | .shl d a b g => [encLr 0x0C d a b g.code 0]
  | .shr d a b g => [encLr 0x0D d a b g.code 0]
  | .sra d a b g => [encLr 0x0E d a b g.code 0]
  | .minU d a b g => [encLr 0x0F d a b g.code 0]
  | .minS d a b g => [encLr 0x0F d a b g.code 1]
  | .maxU d a b g => [encLr 0x10 d a b g.code 0]
  | .maxS d a b g => [encLr 0x10 d a b g.code 1]
  | .abs d a g => [encLr 0x11 d a 0 g.code 0]
  | .neg d a g => [encLr 0x12 d a 0 g.code 0]
  | .clz d a g => [encLr 0x13 d a 0 g.code 0]
  | .popc d a g => [encLr 0x14 d a 0 g.code 0]
  | .bfeU d a b g => [encLr 0x15 d a b g.code 0]
  | .bfeS d a b g => [encLr 0x15 d a b g.code 1]
  | .bfi d a b g => [encLr 0x16 d a b g.code 0]
  | .sel d a b g q => [encLr 0x17 d a b g.code q]
  | .cmpU32 cc d a b g => [encLr 0x18 (cc.code * 8 + d) a b g.code 0]
  | .cmpS32 cc d a b g => [encLr 0x18 (cc.code * 8 + d) a b g.code 1]
  | .pand d a b g => [encLr 0x19 d a b g.code 0]
  | .por d a b g => [encLr 0x1A d a b g.code 0]
  | .pnot d a g => [encLr 0x1B d a 0 g.code 0]
  | .shflIdx d a b g => [encLr 0x1C d a b g.code 0]
  | .shflUp d a b g => [encLr 0x1C d a b g.code 1]
  | .shflDown d a b g => [encLr 0x1C d a b g.code 2]
  | .shflXor d a b g => [encLr 0x1C d a b g.code 3]
  | .voteAny d a g => [encLr 0x1D d a 0 g.code 0]
  | .voteAll d a g => [encLr 0x1D d a 0 g.code 1]
  | .voteBallot d a g => [encLr 0x1D d a 0 g.code 2]
  | .voteEq d a g => [encLr 0x1D d a 0 g.code 3]
  | .fadd d a b g => [encLr 0x20 d a b g.code 0]
  | .fsub d a b g => [encLr 0x21 d a b g.code 0]
  | .fmul d a b g => [encLr 0x22 d a b g.code 0]
  | .ffma d a b g => [encLr 0x23 d a b g.code 0]
  | .fmin d a b g => [encLr 0x24 d a b g.code 0]
  | .fmax d a b g => [encLr 0x25 d a b g.code 0]
  | .fcmp cc d a b g => [encLr 0x26 (cc.code * 8 + d) a b g.code 0]
  | .frcp d a g => [encLr 0x27 d a 0 g.code 0]
  | .frsq d a g => [encLr 0x28 d a 0 g.code 0]
  | .fsqrt d a g => [encLr 0x29 d a 0 g.code 0]
  | .fexp2 d a g => [encLr 0x2A d a 0 g.code 0]
  | .flog2 d a g => [encLr 0x2B d a 0 g.code 0]
  | .ftanh d a g => [encLr 0x2C d a 0 g.code 0]
  | .cvt d a e f g m => [encLr 0x2D d a (e * 16 + f.code) g.code m.code]
  | .dot2Bf16 d a b g => [encLr 0x2E d a b g.code 0]
  | .dot4Fp8 d a b g => [encLr 0x2F d a b g.code 0]
  | .dot8N4o d a b g => [encLr 0x30 d a b g.code 0]
  | .n4pack d a b g => [encLr 0x31 d a b g.code 0]
  | .n4unp d a g => [encLr 0x32 d a 0 g.code 0]
  | .sclx d a b g => [encLr 0x33 d a b g.code 0]
  | .ld d m sz sp => encLmWords 0x38 d m (encMxSpace sp sz.code)
  | .st d m sz sp => encLmWords 0x39 d m (encMxSpace sp sz.code)
  | .lds d m sz sc => encLmWords 0x3A d m (encMx sc.code 0 sz.code 0)
  | .sts d m sz sc => encLmWords 0x3B d m (encMx sc.code 0 sz.code 0)
  | .atom d m op sc => encLmWords 0x3C d m (encMx sc.code 0 4 op.code)
  | .red d m op sc => encLmWords 0x3D d m (encMx sc.code 0 4 op.code)
  | .atomcas d m sz sc => encLmWords 0x3E d m (encMx sc.code 0 sz.code 0)
  | .smov d a => [encUr 0x01 d a 0 0x00]
  | .sadd d a b => [encUr 0x01 d a b 0x01]
  | .ssub d a b => [encUr 0x01 d a b 0x02]
  | .smul d a b => [encUr 0x01 d a b 0x03]
  | .smulhU d a b => [encUr 0x01 d a b 0x04]
  | .smulhS d a b => [encUr 0x01 d a b 0x05]
  | .sdivu d a b => [encUr 0x01 d a b 0x06]
  | .sremu d a b => [encUr 0x01 d a b 0x07]
  | .sand d a b => [encUr 0x01 d a b 0x08]
  | .sor d a b => [encUr 0x01 d a b 0x09]
  | .sxor d a b => [encUr 0x01 d a b 0x0A]
  | .snot d a => [encUr 0x01 d a 0 0x0B]
  | .sshl d a b => [encUr 0x01 d a b 0x0C]
  | .sshr d a b => [encUr 0x01 d a b 0x0D]
  | .ssra d a b => [encUr 0x01 d a b 0x0E]
  | .sminU d a b => [encUr 0x01 d a b 0x0F]
  | .sminS d a b => [encUr 0x01 d a b 0x10]
  | .smaxU d a b => [encUr 0x01 d a b 0x11]
  | .smaxS d a b => [encUr 0x01 d a b 0x12]
  | .sclz d a => [encUr 0x01 d a 0 0x13]
  | .spopc d a => [encUr 0x01 d a 0 0x14]
  | .ssel d a b => [encUr 0x01 d a b 0x16]
  | .slea d a b n => [encUr 0x01 d a b (0x18 + n)]
  | .scmp cc d a b => [encUr 0x01 d a b (0x20 + cc.code)]
  | .smovi d imm => [encUi 0x02 d 0 imm.toNat]
  | .smoviLiteral d lit => [encUi 0x02 d 1 0, lit.toNat]
  | .sld d a sz sc off =>
    encUr 0x03 d a 0 (off.isSome.toNat * 2 ^ 6 + sc.code * 2 ^ 3 + sz.code) :: (off.map BitVec.toNat).toList
  | .sst d a sz sc off =>
    encUr 0x04 d a 0 (off.isSome.toNat * 2 ^ 6 + sc.code * 2 ^ 3 + sz.code) :: (off.map BitVec.toNat).toList
  | .srd d n => [encUi 0x05 d 0 n.toNat]
  | .swr a n => [encUi 0x06 0 a n.toNat]
  | .emrd d => [encUr 0x07 d 0 0 0x00]
  | .emwr a => [encUr 0x07 0 a 0 0x01]
  | .sfmt a => [encUr 0x07 0 a 0 0x02]
  | .sfmtLiteral lit => [encUr 0x07 0 0 0 0x03, lit.toNat]
  | .sfmtrd d => [encUr 0x07 d 0 0 0x04]
  | .bra off => [encUb 0x08 0 off.toNat]
  | .brcNz c off => [encUb 0x09 c off.toNat]
  | .brcZ c off => [encUb 0x0A c off.toNat]
  | .brany inv p off => [encUb 0x0B (inv.toNat * 8 + p) off.toNat]
  | .brall inv p off => [encUb 0x0C (inv.toNat * 8 + p) off.toNat]
  | .call off => [encUb 0x0D 0 off.toNat]
  | .split inv p e j => [encUb 0x0E (inv.toNat * 8 + p) (e * 2 ^ 11 + j)]
  | .ret => [encUr 0x0F 0 0 0 0x00]
  | .join => [encUr 0x0F 0 0 0 0x01]
  | .snop => [encUr 0x10 0 0 0 0x00]
  | .yield => [encUr 0x10 0 0 0 0x01]
  | .exit => [encUr 0x10 0 0 0 0x02]
  | .trap code => [encUr 0x10 0 0 code 0x03]
  | .rtt => [encUr 0x10 0 0 0 0x04]
  | .tfence => [encUr 0x10 0 0 0 0x05]
  | .temit a b => [encUr 0x10 0 a b 0x06]
  | .time d => [encUr 0x10 d 0 0 0x07]
  | .kfork d a => [encUr 0x18 d a 0 0]
  | .kjoin d a b => [encUr 0x19 d a b 0]
  | .krel d => [encUr 0x1A d 0 0 0]
  | .kwait a sc => [encUr 0x1B 0 a 0 sc.code]
  | .kall sc => [encUr 0x1C 0 0 0 sc.code]
  | .ksend a b sc => [encUr 0x1D 0 a b sc.code]
  | .krecv d a => [encUr 0x1E d a 0 0]
  | .krecvTry d a => [encUr 0x1E d a 0 8]
  | .kqry d a => [encUr 0x1F d a 0 0]
  | .ksteal d a sc => [encUr 0x20 d a 0 sc.code]
  | .binit d a => [encUr 0x21 d a 0 0]
  | .barr d a => [encUr 0x22 d a 0 0]
  | .barrLeave d a => [encUr 0x22 d a 0 8]
  | .bwait d a par => [encUr 0x23 d a 0 (par.toNat * 8)]
  | .bqry d a => [encUr 0x24 d a 0 0]
  | .mcjoin d a b pool => [encUr 0x25 d a b (pool * 8)]
  | .mcleave d pool => [encUr 0x26 d 0 0 (pool * 8)]
  | .role d n => [encUr 0x27 d 0 n 0]
  | .mcld x y pool k c off => encUe 0x28 x y pool k c off
  | .amsend x y h k c => encUe 0x29 x y h k c none
  | .nred x y op k c tmo => encUe 0x2A x y op.code k c tmo
  | .launch x sc k c => encUe 0x2B x sc.code 0 k c none
  | .tcfg x y k c => encUe 0x2C x y 0 k c none
  | .tlda x y k c pitch => encUe 0x2D x y 0 k c pitch
  | .tldb x y k c pitch => encUe 0x2E x y 0 k c pitch
  | .mma x y z k c mode => encUe 0x2F x y z k c mode
  | .tzero x k c => encUe 0x30 x 0 0 k c none
  | .tst x y k c pitch => encUe 0x31 x y 0 k c pitch
  | .tcvt x y k c cw => encUe 0x32 x y 0 k c cw
  | .ascan x y z k c => encUe 0x33 x y z k c none
  | .cld x y k c => encUe 0x34 x y 0 k c none
  | .cst x y k c => encUe 0x35 x y 0 k c none
  | .cpyLd x y k c off => encUe 0x36 x y 0 k c off
  | .cpySt x y k c off => encUe 0x36 x y 1 k c off
  | .cpysLd x y k c gp => encUe 0x37 x y 0 k c (some gp)
  | .cpysSt x y k c gp => encUe 0x37 x y 1 k c (some gp)
  | .cpyc x y k c off => encUe 0x38 x y 0 k c off
  | .cpyg x y k c off => encUe 0x39 x y 0 k c off
  | .cpyx x y k c off => encUe 0x3A x y 0 k c off
  | .rinit x y => encUe 0x3B x y 0 15 15 none
  | .rputAcq x y k => encUe 0x3C x y 0 k 15 none
  | .rputCmt x y c => encUe 0x3C x y 1 15 c none
  | .rgetAcq x y k => encUe 0x3D x y 0 k 15 none
  | .rgetRel x y c => encUe 0x3D x y 1 15 c none
  | _ => []

end Sys2Proof
end

