-- ==== Sys2Proof/Machine/Bits.lean ====
section
/-! DEFINITION. Bit fields of 32-bit words, signed readings of fields, lane masks, list updates. -/

namespace Sys2Proof.Machine

open Sys2Proof

/-- n bits of a word from bit lo up. -/
def bitsOf (w : Word) (lo n : Nat) : Nat := field w.toNat lo n

/-- The word with its n bits from lo replaced by v. -/
def setBits (w : Word) (lo n v : Nat) : Word :=
  BitVec.ofNat 32 (w.toNat - bitsOf w lo n * 2 ^ lo + v % 2 ^ n * 2 ^ lo)

/-- An n-bit field read as a two's-complement number. -/
def sext (n v : Nat) : Int := if 2 ^ (n - 1) ≤ v % 2 ^ n then (v % 2 ^ n : Int) - 2 ^ n else (v % 2 ^ n : Int)

/-- The low n bits of an integer. -/
def wrap (n : Nat) (x : Int) : Nat := (x % 2 ^ n).toNat

/-- The low 32 bits of an integer as a word. -/
def word (x : Int) : Word := BitVec.ofInt 32 x

/-- A word from a Boolean. -/
def boolWord (b : Bool) : Word := if b then 1 else 0

/-- The lane mask of a property of lanes 0 to 31. -/
def laneMask (f : Nat → Bool) : LaneMask := BitVec.ofNat 32 ((List.range 32).foldr (fun l n => (f l).toNat * 2 ^ l + n) 0)

/-- The 32 lanes. -/
def lanes : List Nat := List.range 32

/-- The lanes of a mask, ascending. -/
def lanesOf (m : LaneMask) : List Nat := lanes.filter fun l => m.getLsbD l

/-- Leading zero bits of a word, 0 to 32. -/
def clz32 (w : Word) : Nat := ((List.range 32).find? fun k => w.getLsbD (31 - k)).getD 32

/-- Set bits of a word. -/
def popc32 (w : Word) : Nat := (lanes.filter fun l => w.getLsbD l).length

/-- Saturating step of a 32-bit counter. -/
def satInc (w : Word) : Word := if w.toNat = 2 ^ 32 - 1 then w else w + 1

/-- Signed minimum and maximum of words. -/
def sminW (a b : Word) : Word := if a.toInt ≤ b.toInt then a else b
def smaxW (a b : Word) : Word := if a.toInt ≤ b.toInt then b else a
def uminW (a b : Word) : Word := if a.toNat ≤ b.toNat then a else b
def umaxW (a b : Word) : Word := if a.toNat ≤ b.toNat then b else a

end Sys2Proof.Machine
end

