-- ==== Sys2Proof/Config.lean ====
section
/-! DEFINITION. What the spec leaves to the part or to the outside world, as constants without a body: nothing in Lean can find
out their values, so a statement about them holds for every value (notes/assumptions/5.md). -/

namespace Sys2Proof

/-- Word 0 of the canonical page entry of another package: chip, ASID, virtual address, a plain counter (R401). -/
opaque Config.foreignPte : Nat → Nat → Nat → Nat → Word

/-- The fused KEYHASH (R359). -/
opaque Config.keyHash : BitVec 384

/-- The attestation key's signature and public key material that ATTEST writes (R360): measurement and report bytes. -/
opaque Config.attestSign : BitVec 384 → List Byte → List Byte

/-- The certificate of the identity key at attestation-area offset 0x800 (R359). -/
opaque Config.certificate : List Byte

/-- What derives the public half of the attestation key, a point of P-384, from the fused secret and the measurement: different measurements
yield different keys (R359). -/
structure KeyDerivation where
  key : BitVec 384 → BitVec 384 × BitVec 384 := fun m => (m, 0)
  distinct : ∀ a b, key a = key b → a = b := by intro a b h; exact (Prod.mk.inj h).1
  deriving Inhabited

/-- The package's derivation (R359). -/
opaque Config.attestKey : KeyDerivation

/-- The identity key's signature over the attestation public key and the measurement (R360). -/
opaque Config.identitySign : BitVec 384 → List Byte → List Byte

/-- The device's references to key sets and counters in a context image, OPAQ fields (R80): a reference number for a slot of the
image. -/
opaque Config.opaq : Nat → Word

/-- The warp slot in the WID of a STOP packet, which the spec does not state (R338): a plain counter. -/
opaque Config.stopSlot : Nat → Nat

/-- The attestation report as ATTEST lays out its parts, an order the spec does not give (R360). -/
opaque Config.report : List (List Byte) → List Byte

/-- LSEQ of a flit that this package sends (R319): a plain counter. -/
opaque Config.lseq : Nat → BitVec 12

/-- Flits, less 1, of a message whose encoding the spec does not give (R319, R327): a plain counter. -/
opaque Config.nfm1 : Nat → BitVec 4

/-- Whether a command's slot, which an unfinished command names, is free on the scoreboard in a clk (R263, R309, R413;
notes/assumptions/48.md): the unfinished command, the core's clk. -/
opaque Config.slotFree : Nat → Nat → Bool

/-- The set of a cache that a line goes to (R112), which the spec does not state: level (1 L1, 2 cluster cache, 3 home slice), ASID, line. -/
opaque Config.cacheSet : Nat → Nat → Nat → Nat

/-- Whether a TOKEN record of a regeneration says duplicate, the older token having turned up, or lost (R415, R422): a plain counter. -/
opaque Config.tokenTwice : Nat → Bool

/-- Flits unacknowledged when an in-package link fails (R415): a plain counter. -/
opaque Config.unacked : Nat → Word

end Sys2Proof
end

