-- ==== Sys2Proof/Machine/State.lean ====
section
/-! DEFINITION. The state of one AMH-CH4-1024 package (R14), as plain data: warps, workgroups, grids, the operations in flight
with their accesses, messages, engine commands, caches, the home memory, the management registers, the fabric and the platform.
Tables only grow: an entry that has ended keeps its index and says so in a status field (notes/assumptions/3.md). -/

namespace Sys2Proof.Machine

open Sys2Proof

/-- Why a step stops with a fault. -/
inductive Fault where
  /-- Raised by `State.fetch` in Machine/Ready.lean: an instruction word lies on a page with no valid mapping. The spec gives no
  outcome of such a fetch (R157 says only that instructions lie in global memory). SAFE: the run stops. -/
  | fetchUnmapped
  /-- Raised by `State.fetch` in Machine/Ready.lean: an instruction word lies on an alias page of another package's memory; the spec does not say how
  instructions are fetched across packages. SAFE: the run stops. -/
  | fetchForeign
  deriving DecidableEq, Repr

/-- Why a step is refused. -/
inductive Refusal where
  /-- Raised only by exec's arm of an instruction that has no meaning yet. SAFE. -/
  | notModelled (mnemonic : String)
  deriving DecidableEq, Repr

/-- A member of a key's set (R133): an operation of this package by its index in `ops`, or of another package (`chip`), with the
scope of the splice that brought it in (R142). -/
structure Member where
  op   : Nat
  chip : Option Nat := none
  via  : Option Scope := none
  deriving DecidableEq, Repr, Inhabited

/-- Key states (R68). -/
inductive KeyState where
  | idle | opened | closed
  deriving DecidableEq, Repr, Inhabited

/-- A key entry k0 to k14 (R68, R133). -/
structure KeyEntry where
  st  : KeyState := .idle
  set : List Member := []
  deriving DecidableEq, Repr, Inhabited

/-- One carry register (R69): 32 states, 32 cumulative gains, the horizon mask; the two lists of poisoned channels (R394). -/
structure Carry where
  h   : List Word
  g   : List Word
  hor : Word
  psn : Word
  deriving DecidableEq, Repr, Inhabited

/-- A reconvergence stack entry (R42, R46). -/
structure StackEntry where
  pc    : PC
  mask  : LaneMask
  fmt   : Word
  kind  : BitVec 4
  cause : BitVec 8
  bad   : Bool := false              -- an uncorrectable error of the hardware stack (R397)
  deriving DecidableEq, Repr, Inhabited

/-- One lane register (R61): 32 lane values and the poison mark of each lane (R393). -/
structure LaneReg where
  val : List Word
  psn : LaneMask
  deriving DecidableEq, Repr, Inhabited

/-- Warp roles (R48), codes 0 to 3. -/
inductive Role where
  | general | copy | matrix | vector
  deriving DecidableEq, Repr, Inhabited

/-- What a warp's next instruction waits for (R55, R309, R343); none: nothing known. `far`: the awaited set holds an unperformed
operation of scope die, pkg or sys (R55). -/
inductive Wait where
  | none
  | bwait (b : Nat) (par : Bool)
  | ringAcq (ring : Nat) (consumer : Bool)
  | kwait (key : Nat) (sc : Scope) (far : Bool)
  | kall (sc : Scope)
  | launch
  | grow
  | krecv
  | queueFull
  | spliceStore
  | closedKey (key : Nat)
  | keyLimit (ms : List Member) (room : Nat)
  | tfence
  | probe (asid page : Nat)
  | room (asid va : Nat)              -- a spill line waits for a way of the L1 (R45, R112)
  | trace
  | fetch
  | score
  | slot (op : Nat)                   -- a tile slot, B slot or carry register that a command holds (R309, R343)
  | counter                           -- no key tracking counter is free at a home slice (R410)
  deriving DecidableEq, Repr, Inhabited

/-- The life of a warp. -/
inductive WarpStatus where
  | running | ended | killed
  deriving DecidableEq, Repr, Inhabited

/-- A splice in a receive queue (R236). -/
structure Splice where
  set : List Member
  sc  : Scope
  tag : BitVec 8
  deriving DecidableEq, Repr, Inhabited

/-- One warp (R61). -/
structure Warp where
  wg      : Nat                      -- index in `wgs`
  num     : Nat                      -- %warp
  handler : Option Nat := none       -- the handler index q of a handler warp (R252)
  born    : Nat := 0                 -- spawn order of handler warps (R310)
  slot    : Nat                      -- warp slot (R39)
  status  : WarpStatus := .running
  pc      : PC
  v       : List LaneReg             -- 8 x allotment lane registers (R62)
  s       : List Word                -- s0 to s63
  sPsn    : BitVec 64 := 0           -- poison marks of s0 to s63 (R394)
  p       : List LaneMask            -- p0 to p6
  emask   : LaneMask
  fmt     : BitVec 16
  aflags  : Word := 0
  stack   : List StackEntry := []    -- the hardware part of the reconvergence stack, top first (R45)
  spilled : Nat := 0                 -- entries spilled to private memory (R45, R46)
  trapAt  : Option Nat := none       -- TRAPAT (R196)
  keys    : List KeyEntry            -- k0 to k14
  carry   : List Carry               -- c0 to c3
  role    : Role
  cls     : Nat                      -- priority class
  desc    : Nat                      -- descriptor index
  allot   : Nat                      -- allotment in granules (R62)
  clkLatch : Word := 0               -- the CLKHI latch (R79)
  psnTrap : Option Nat := none       -- the earliest load that wrote poison since the last issue (R395): its index in `ops`
  recvq   : List Splice := []        -- receive queue, oldest first (R236)
  wait    : Wait := .none
  yielded : List Nat := []           -- warps a YIELD still lets go first (R59)
  unsel   : Nat := 0                 -- consecutive clk ready and unselected (R313)
  starved : Bool := false            -- R313
  issued  : Bool := false            -- has issued in the current step of the debug logic (R349)
  passBp  : Bool := false            -- passes its breakpoint once (R349)
  stalledAt : Option PC := none      -- the PC of a breakpoint hit (R346)
  owed    : List (Nat × Word × Bool) := [] -- scalar results that came while its workgroup was evicted (notes/assumptions/41.md)
  deriving DecidableEq, Repr, Inhabited

/-- One tile slot (R71, R265, R267): its bytes, and the poisoned words. -/
structure Tile where
  occ   : Bool := false
  wide  : Bool := false
  bytes : Bytes := []
  psn   : List Nat := []
  deriving DecidableEq, Repr, Inhabited

/-- One B slot (R72). -/
structure BSlot where
  occ   : Bool := false
  bytes : Bytes := []
  psn   : List Nat := []
  deriving DecidableEq, Repr, Inhabited

/-- One barrier register (R73) with its contributed sets (R148), the internal LEAVES of R240 and the arrival record of R348. -/
structure Barrier where
  members : Nat := 0
  arrived : Nat := 0
  phase   : Nat := 0
  leaves  : Nat := 0
  cur     : List Member := []
  last    : List Member := []
  byWarp  : List Nat := []
  others  : Nat := 0
  deriving DecidableEq, Repr, Inhabited

/-- One ring slot (R81). -/
structure RingSlot where
  pacq : Bool := false
  pcom : Bool := false
  cacq : Bool := false
  crel : Bool := false
  fill : List Member := []
  free : List Member := []
  fillRef : Bool := false            -- a fill set has been recorded since RINIT (FILLO)
  freeRef : Bool := false            -- a free set has been recorded since RINIT (FREEO)
  deriving DecidableEq, Repr, Inhabited

/-- A waiting ring acquisition (R51): the warp and its operands. -/
structure RingWait where
  warp : Nat
  y    : Nat
  k    : Nat
  deriving DecidableEq, Repr, Inhabited

/-- One stage ring (R50, R74, R81); n = 0: not initialised. -/
structure Ring where
  n      : Nat := 0
  base   : Nat := 0
  slotb  : Nat := 0
  filled : Nat := 0
  free   : Nat := 0
  pidx   : Nat := 0
  pph    : Bool := false
  cidx   : Nat := 0
  cph    : Bool := false
  oprod  : Nat := 0                  -- OP of R289
  ocons  : Nat := 0                  -- OC of R290
  slots  : List RingSlot := []
  pwait  : List RingWait := []       -- producer acquisitions waiting, oldest first
  cwait  : List RingWait := []       -- consumer acquisitions waiting, oldest first
  word3  : Word := 0                 -- reserved operand word of RINIT as given
  deriving DecidableEq, Repr, Inhabited

/-- A pending-launch entry (R256): the record's address and the LAUNCH operation. -/
structure LaunchEntry where
  addr : Nat
  op   : Nat
  deriving DecidableEq, Repr, Inhabited

/-- A register grow that waits (R53). -/
structure GrowReq where
  warp : Nat
  desc : Nat
  pd   : Nat
  deriving DecidableEq, Repr, Inhabited

/-- The life of a workgroup (R37, R55 to R58, R299, R382). -/
inductive WgStatus where
  | placed | running | evicted | ended | terminated
  deriving DecidableEq, Repr, Inhabited

/-- A range of a die's save pool that holds an image (R306). -/
structure SaveRange where
  die  : Nat
  base : Nat
  size : Nat
  deriving DecidableEq, Repr, Inhabited

/-- One workgroup (R70). -/
structure Workgroup where
  grid    : Nat                      -- index in `grids`
  seq     : Nat                      -- placement sequence number (R301)
  die     : Nat                      -- %die
  cl      : Nat                      -- %cl
  wg      : Nat                      -- %wg
  core    : Nat                      -- core index 12 (16 d + c) + j; while evicted, the core it last ran on
  status  : WgStatus := .placed
  scratch : Bytes := []              -- scratchpad
  scrPsn  : List Nat := []           -- poisoned scratchpad words
  tiles   : List Tile
  bslots  : List BSlot
  bars    : List Barrier
  rings   : List Ring
  launchQ : List LaunchEntry := []
  growQ   : List GrowReq := []
  freed   : Nat := 0                 -- granules freed in this clk, free from the next (R53)
  preempt : Bool := false            -- a pre-emption request is pending (R55)
  byCmd   : Bool := false            -- evicted or named by a management command not yet resumed (R305)
  started : Bool := false            -- has issued its first instruction (R341)
  restored : Bool := false           -- has issued nothing since its restore (R341)
  saved   : Option SaveRange := none
  codes   : List (Nat × Word) := []  -- offsets and words of its image that carry a check code (R390)
  deriving DecidableEq, Repr, Inhabited

/-- One role descriptor of a launch record (R178). -/
structure Desc where
  role  : Role
  cls   : Nat
  allot : Nat
  count : Nat
  entry : PC
  deriving DecidableEq, Repr, Inhabited

/-- A launch record as read (R176 to R178). -/
structure Record where
  version  : Nat
  ndesc    : Nat
  gclass   : Nat
  isMatrix : Bool
  legal    : Bool
  ndie     : Nat
  ncl      : Nat
  nwg      : Nat
  nwarp    : Nat
  reg      : Nat
  scr      : Nat
  acc      : Nat
  fmt      : BitVec 16
  privSize : Nat
  spillLines : Nat
  privBase : Nat
  argPtr   : BitVec 52
  counter  : Nat
  start    : Nat
  gridNo   : Nat
  ngrid    : Nat
  late     : Nat
  descs    : List Desc
  handlers : List PC
  deriving DecidableEq, Repr, Inhabited

/-- The life of a grid (R298, R299, R305, R155). -/
inductive GridStatus where
  | held | waiting | placed | released | signalled | refused
  deriving DecidableEq, Repr, Inhabited

/-- Where a launch record came from (R292). -/
inductive Source where
  | host (q : Nat)
  | device (op : Nat) (seq : Nat)
  deriving DecidableEq, Repr, Inhabited

/-- One member of a pool's directory (R245, R246). -/
structure PoolMember where
  wg   : Nat
  base : Nat                         -- landing buffer, in 128-byte lines
  size : Nat
  tmo  : Nat
  deriving DecidableEq, Repr, Inhabited

/-- One pool of a grid (R245, R247). -/
structure Pool where
  members  : List PoolMember := []
  timeouts : Nat := 0
  discards : Nat := 0
  deriving DecidableEq, Repr, Inhabited

/-- One grid. -/
structure Grid where
  lrec    : Record
  asid    : Nat
  addr    : Nat                      -- the record's address
  src     : Source
  status  : GridStatus
  pools   : List Pool
  error   : Bool := false            -- a sticky error is recorded (R169, R386)
  lateBy  : Option Nat := none       -- lateness in TIMEBASE counts when it exceeds LATE (R304)
  startSeq : Nat := 0                -- order of starting (R302)
  flagged : Bool := false            -- the first step of its signal has been made (R297)
  illegal : Option (Nat × Word) := none -- PC and first word of the earliest illegal word (R169)
  deriving DecidableEq, Repr, Inhabited

/-- Which copy or point an access has reached. -/
inductive Stage where
  | held                             -- at the issuing warp, not yet at work
  | wcb                              -- a store in the write-combining buffer, or an own store performed at wg (R122)
  | drained                          -- on its way to the cluster cache
  | atCl                             -- a store in the cluster cache, performed at cl; a load that missed there
  | remote                           -- sent to another package, waiting for its answer
  | fetched                          -- a load's value is fixed, its response is on its way
  | done                             -- performed at every scope; for a load the value is fixed and back
  deriving DecidableEq, Repr, Inhabited

/-- The three address spaces (R106). -/
inductive Space where
  | global | scratch | priv
  deriving DecidableEq, Repr, Inhabited

/-- One access of an operation: up to 16 bytes of one lane (R224), or one word of a copy command. -/
structure Access where
  lane  : Nat                        -- 0 to 31; 32: the scalar unit or an engine
  part  : Nat                        -- word of a private access of 8 or 16 bytes; word of a copy command
  space : Space
  asid  : Nat
  va    : Nat                        -- global virtual address, or scratchpad offset
  size  : Nat
  write : Bool
  isAlias : Bool := false            -- the page is an alias page (R117)
  scr   : Nat := 0                   -- the scratchpad side of a copy command's word
  scrWg : Nat := 0                   -- the workgroup whose scratchpad that is
  be    : BitVec 16 := 0             -- byte enables of a store (R146)
  data  : BitVec 128 := 0            -- a store's data, a load's value
  psn   : BitVec 4 := 0              -- poisoned words of data
  stage : Stage := .held
  stamp : Nat := 0                   -- order of entering the write-combining buffer
  install : Bool := true             -- a fill may be installed (R120)
  fromCl : Bool := false             -- a load served by the cluster cache's copy (R113)
  first : Bool := false              -- a store whose line drains before others of its core (R123)
  atHome : Bool := false             -- a request that waits at its home slice, where it holds a tracking counter (R403, R410)
  noCtr : Bool := false              -- a request that waits there for a tracking counter (R410)
  late  : Bool := false              -- a late failure (R402, R421)
  deriving DecidableEq, Repr, Inhabited

/-- What a lane or scalar memory operation does. -/
inductive MemAct where
  | load | store | atom (op : AtomOp) | red (op : AtomOp) | cas
  deriving DecidableEq, Repr, Inhabited

/-- The descriptor words of a copy command, read at issue (R277). -/
structure CopyArgs where
  addr : Nat                         -- the global address sum modulo 2^64
  d0   : Word
  d1   : Word
  d2   : Word
  d3   : Word
  gp   : Word                        -- CPYS: global pitch
  dreg : Nat                         -- y, so D2 = s(y+2) and D3 = s(y+3)
  deriving DecidableEq, Repr, Inhabited

/-- The copy commands (R259). -/
inductive CopyKind where
  | ld | st | sld | sst | c | g | x
  deriving DecidableEq, Repr, Inhabited

/-- An engine command with the operands it read at issue (R261). FMT is read at issue (R190). -/
inductive Cmd where
  | tcfg (t : Nat) (w : Word)
  | tlda (t off : Nat) (pitch : Option Nat) (fmt : BitVec 16)
  | tldb (m off : Nat) (pitch : Option Nat) (fmt : BitVec 16)
  | mma (d a m : Nat) (mode : Word) (fmt : BitVec 16)
  | tzero (t : Nat)
  | tst (t off : Nat) (pitch : Option Nat)
  | tcvt (d src : Nat) (cw : Word) (fmt : BitVec 16)
  | ascan (g o c : Nat)
  | cld (c off : Nat)
  | cst (c off : Nat)
  | copy (k : CopyKind) (a : CopyArgs)
  deriving DecidableEq, Repr, Inhabited

/-- What an operation is (R130). -/
inductive OpKind where
  | mem (act : MemAct) (d : Nat) (size : Nat) (signed : Bool) (scalar : Bool)
  | cmd (c : Cmd)
  | mcld (addr : Nat) (y : Nat) (ctl : Word) (pool : Nat)
  | amsend (tgt tgthi : Word) (h : Nat) (payload : List Word)
  | nred (z : NredOp) (x y : Nat) (ctl : Word) (val : BitVec 64) (tmo : Nat)
  | launch (addr : Nat)
  | steal (victim : Option Nat) (stores : List Nat)
  | time (d : Nat)
  deriving DecidableEq, Repr, Inhabited

/-- Where an operation stands. -/
inductive OpStatus where
  | issued                           -- in flight; its accesses say how far
  | started                          -- an engine command that runs; a message on its way; a promotion or an MCLD that reached its place
  | performed                        -- everything it does has performed at sys scope
  | complete                         -- it has left every key set (R133)
  deriving DecidableEq, Repr, Inhabited

/-- What a started matrix or scan command has read of the units that later commands may overwrite (R263). -/
structure Captured where
  tiles : List (Nat × Tile) := []
  slots : List (Nat × BSlot) := []
  carry : List (Nat × Carry) := []
  deriving DecidableEq, Repr, Inhabited

/-- One operation of the memory model (R130). -/
structure Op where
  kind   : OpKind
  warp   : Nat
  wg     : Nat
  core   : Nat                       -- the core it issued on
  pc     : PC
  sc     : Scope
  snap   : List Member := []         -- its consume snapshot (R134)
  acc    : List Access := []
  status : OpStatus := .issued
  flags  : Word := 0                 -- AFLAGS bits it will set (R67)
  aux    : List Nat := []            -- running results of a copy command: DROPPED mask or AUX, NOVF
  refusal : Bool := false            -- refused (R264)
  fail   : Option Nat := none        -- ended with FAULT and this cause (R404)
  psn    : Bool := false             -- of an NRED: its contribution, once combined its result, is poisoned (R394)
  caps   : Captured := {}            -- operands of a started engine command (R263)
  hits   : List (Nat × Nat × Nat) := [] -- elements that met an error inside the engine: OPND, X, Y (R396)
  deriving DecidableEq, Repr, Inhabited

/-- A contribution to an atomic request (R125, R126): the operation, its access, the operand. -/
structure Contrib where
  op  : Nat
  acc : Nat
  x   : Word
  deriving DecidableEq, Repr, Inhabited

/-- An atomic request, in a cluster combining buffer or on its way to the home atomic unit (R125). -/
structure AtomReq where
  cluster : Nat
  asid : Nat
  va   : Nat
  act  : MemAct
  contribs : List Contrib
  cas  : Option (Nat × BitVec 64 × BitVec 64) := none   -- size, compare and new value (R227)
  step2 : Bool := false              -- the second step of CPYC at its version word (R282)
  deriving DecidableEq, Repr, Inhabited

/-- A message of the fabric (R321): a splice or an active message. -/
inductive MsgBody where
  | splice (set : List Member) (tag : BitVec 8)
  | active (h : Nat) (payload : List Word) (sender senderGrid : Word)
  deriving DecidableEq, Repr, Inhabited

/-- Where a message stands. -/
inductive MsgStage where
  | held                             -- in the sender's store, its snapshot not yet performed
  | sent                             -- in the fabric
  | away                             -- a splice on its way to another package, in no receive queue yet (R235)
  | buffered                         -- an active message in the target die's buffer
  | gone                             -- delivered, or discarded
  deriving DecidableEq, Repr, Inhabited

/-- One message. -/
structure Msg where
  body  : MsgBody
  op    : Option Nat                 -- the AMSEND operation
  warp  : Option Nat                 -- the sending warp; none: from another package
  chip  : Option Nat := none         -- the sending package, when it is another
  core  : Nat := 0                   -- the sending core
  asid  : Nat
  die   : Nat                        -- the sender's die
  tgt   : Word
  tgthi : Word
  sc    : Scope
  stage : MsgStage := .held
  tgtWg : Option Nat := none         -- the target workgroup, once found
  sentAt : Nat := 0                  -- order of sending (R321)
  at_   : Nat := 0                   -- operations issued before it: its place in its core's issue order (R321)
  parts : Nat := 0                   -- messages of a split splice still to come (R327)
  toChip : Option Nat := none        -- the package a splice has been sent to
  deriving DecidableEq, Repr, Inhabited

/-- A hold of a home slice, or its ended record (R248). -/
structure Hold where
  die   : Nat
  slice : Nat
  grid  : Nat
  pool  : Nat
  va    : Nat
  nlines : Nat
  isOpen : Bool                      -- open hold; otherwise ended record
  awaited : List Nat                 -- workgroups (open), or the missing members (ended)
  included : List Nat                -- MCLD operations included
  queued : List Nat := []            -- MCLDs that open the next hold
  startAt : Nat := 0
  tmo   : Nat := 0
  endedAt : Nat := 0
  free  : Bool := false
  entry : Nat := 0                   -- the entry of the slice's hold table, 0 to 31
  deriving DecidableEq, Repr, Inhabited

/-- A pool read that is to be made (R152): the operations it fills and the status they will show. -/
structure Fill where
  op     : Nat
  kind   : Nat
  awaited : Nat
  included : Nat
  deriving DecidableEq, Repr, Inhabited

/-- Ended holds, and own reads, whose read is still to be made (R152, R248). -/
structure PoolJob where
  asid   : Nat
  va     : Nat
  nlines : Nat
  fills  : List Fill
  src    : Nat := 0                  -- the operation that carries its accesses to another package
  read   : Bool := false
  data   : Bytes := []
  psn    : List Nat := []
  deriving DecidableEq, Repr, Inhabited

/-- One reduction instance (R253, R255). -/
structure NredInst where
  grid  : Nat
  die   : Option Nat                 -- none: pkg scope
  id    : Nat
  z     : NredOp
  count : Nat
  ops   : List Nat
  startAt : Nat
  tmo   : Nat
  isOpen : Bool := true
  deriving DecidableEq, Repr, Inhabited

/-- A cached line (R112): four sectors with their valid bits, data, poison marks of its words. -/
structure Line where
  asid  : Nat
  line  : Nat                        -- VA div 128
  grain : Nat                        -- 0: 32 B, 1: 128 B, 2: 512 B (R113)
  valid : BitVec 4
  data  : BitVec 1024
  psn   : BitVec 32 := 0
  isPriv : Bool := false
  dirty : BitVec 128 := 0            -- dirty bytes of a private line
  deriving DecidableEq, Repr, Inhabited

/-- A line of a home slice's cache (R112), by its die, ASID and VA[51:7]. `State.mem` holds what the home answers; the line holds what
differs from it in the HBM below: which bytes are dirty, and what the HBM holds of its valid sectors. -/
structure SliceLine where
  die   : Nat
  asid  : Nat
  line  : Nat                        -- VA div 128, canonical
  key   : Nat                        -- its first byte's key in `mem`
  grain : Nat
  valid : BitVec 4
  dirty : BitVec 128 := 0            -- bytes written since the last write-back
  under : BitVec 1024 := 0           -- the HBM's bytes
  underPsn : BitVec 32 := 0          -- the HBM's poison marks
  deriving DecidableEq, Repr, Inhabited

/-- An entry of a home slice's remap filter (R117): an alias page and the four words of its entry. -/
structure RemapEntry where
  die   : Nat
  slice : Nat
  asid  : Nat
  base  : Nat                        -- the alias page's first byte
  size  : Nat                        -- 64 KiB or 2 MiB
  words : List Word
  deriving DecidableEq, Repr, Inhabited

/-- An entry of a core's access check buffer (R116): word 0 of the page entry and, for an alias page, what R401 returns. -/
structure AcbEntry where
  asid : Nat
  page : Nat                         -- VA div 2^16 of the page's first 64 KiB
  lg   : Bool                        -- a 2 MiB page (R114)
  word0 : Word
  deriving DecidableEq, Repr, Inhabited

/-- The pick of one slot of a scheduler in the last clk (R311, R342, R343). -/
structure LastPick where
  warp : Nat
  pc   : PC
  lost : Option PC                   -- the PC of the pick that took its port
  pair : Bool                        -- a paired dot in the uniform slot (R216)
  done : Bool := false               -- its instruction has issued
  deriving DecidableEq, Repr, Inhabited

/-- One core (R15). -/
structure Core where
  clk   : Nat := 0                   -- the core's clk counter (R79)
  l1    : List Line := []
  acb   : List AcbEntry := []
  wd    : Nat := 0                   -- watchdog count (R60)
  nextSample : List Nat := [0, 0]    -- the slot each scheduler samples next (R343)
  lastPick : List (Option LastPick) := [none, none, none, none] -- lane and second slot of scheduler 0, then of scheduler 1
  stall : List (List Nat) := []      -- stall counters by engine and cause (R342)
  deriving DecidableEq, Repr, Inhabited

/-- A packet of a trace FIFO (R337, R338), with the clk of its entry. -/
inductive Packet where
  | temit (wid : Nat) (payload : BitVec 64) (ts : Nat)
  | wgmap (wid asid seq place : Nat) (slots : List Nat) (ts : Nat)
  | loss (n : Nat) (ts : Nat)
  | stop (wid cause phase : Nat) (ts : Nat)
  deriving DecidableEq, Repr, Inhabited

/-- An entry of a stall table (R343, R344). -/
structure StallEntry where
  set   : Nat
  asid  : Nat
  pc    : Nat
  reason : Nat
  blame : Nat
  count : Nat
  multi : Bool := false
  used  : Nat := 0                   -- order of the last update
  deriving DecidableEq, Repr, Inhabited

/-- A core with nothing in it. -/
def Core.mk0 : Core := {}

/-- The stop logic of a cluster (R347): no workgroup, stopping, stopped. -/
inductive DbgState where
  | none | stopping | stopped | stepping
  deriving DecidableEq, Repr, Inhabited

/-- One cluster (R15). -/
structure Cluster where
  clk     : Nat := 0                 -- the cluster's clk counter (R340)
  cache   : List Line := []          -- cluster cache (R112)
  combine : List AtomReq := []       -- combining buffer (R125)
  fifo    : List Packet := []        -- trace FIFO, oldest first
  lossCnt : Nat := 0                 -- drops not yet in a LOSS packet
  nPkts   : Nat := 0                 -- non-SYNC packets written since enable (R338)
  sinceSync : Nat := 0               -- of them since the last SYNC (R340)
  lastTs  : Option Nat := none       -- timestamp of the last packet written
  drainAsid : Nat := 0               -- ASID of the last enable
  trFail  : Bool := false            -- a packet failed its access check and waits for TRRP or TRCTL (R336)
  stalls  : List StallEntry := []    -- stall table
  spillQ  : List StallEntry := []    -- entries that have spilled, their records still to be written, oldest first (R344, R345)
  counted : Bool := true             -- the clk just over has been counted and sampled (R342, R343)
  stFail  : Bool := false            -- a record failed since the last STRP or STCTL write (R345)
  dbg     : DbgState := .none
  dbgWg   : Nat := 0                 -- the stopped workgroup
  dbgCause : Nat := 0
  bpHit   : List Nat := []           -- warps that hit (R348)
  noStep  : List Nat := []           -- warps that did not issue in the last step
  stepClk : Nat := 0
  deriving DecidableEq, Repr, Inhabited

/-- A cluster with nothing in it. -/
def Cluster.mk0 : Cluster := {}

/-- An in-package link (R416): its working lanes, its width, whether it retrains. -/
structure DieLink where
  lanes  : BitVec 64 := BitVec.allOnes 64
  width  : Nat := 64
  training : Bool := false
  failed : Bool := false
  deriving DecidableEq, Repr, Inhabited

/-- A link with all its lanes. -/
def DieLink.mk0 : DieLink := {}

/-- A channel of a die's crossbar (R422): its token's generation, the times of its regenerations, failed over. -/
structure TokenChannel where
  num   : Nat
  gen   : Nat := 0
  times : List Nat := []
  failedOver : Bool := false
  deriving DecidableEq, Repr, Inhabited

/-- One compute die. -/
structure Die where
  clmask   : BitVec 16
  coremask : List (BitVec 12)        -- by physical cluster
  sliceLo  : Word
  sliceHi  : Word
  lastTime : Nat := 0                -- LASTTIME (R199)
  rt       : Nat := 0                -- last measured centre-link round trip, in counts (R334)
  freqWant : Option Nat := none      -- step code a frequency change waits for (R417)
  restarts : List Nat := [0, 0, 0]   -- restarts of its three links' retrainings during this request (R417)
  step     : Nat := 0                -- running step code (R361)
  gated    : Bool := false           -- clock-gated (R361)
  hot      : Bool := false           -- held at step 4 (R427)
  isolated : Bool := false           -- R418, R428
  channels : List TokenChannel := [] -- the channels whose tokens have been regenerated (R422)
  saves    : List SaveRange := []    -- save-pool ranges in use (R306)
  deriving DecidableEq, Repr, Inhabited

/-- A message sent out of the package, by its fibre group or to the host adapter; what the outside world sees. -/
structure OutMsg where
  group : Nat
  chip  : Nat
  src   : Nat                        -- SCHIP: this package's identifier, or that of a message it forwards (R323, R324)
  body  : FabMsg
  left  : Nat := 0                   -- flits that the peer has not acknowledged (R415)
  lost  : Bool := false              -- lost in flight when its group failed (R421)
  deriving DecidableEq, Repr, Inhabited

/-- A fibre group in training or retraining (R318, R419): since when, why (0 enabled; 1 loss, 2 CRC, 3 requested width), LGSTAT before. -/
structure GroupTrain where
  group : Nat
  since : Nat
  sub   : Nat
  before : Word
  deriving DecidableEq, Repr, Inhabited

/-- What a fibre group has lost since it was last enabled (R419): fibres (0 to 3 transmit, 4 to 7 receive), wavelengths of fibres. -/
structure GroupLoss where
  group  : Nat
  fibres : List Nat := []
  lambdas : List (Nat × Nat) := []
  deriving DecidableEq, Repr, Inhabited

/-- A candidate of the distributor (R295): its source, its entry's address, its ASID, its arrival order, and once read its
record. -/
structure Candidate where
  src  : Source
  addr : Nat
  asid : Nat
  arrival : Nat
  lrec : Option Record := none
  waiting : Bool := false            -- taken by a decision, waits for room (R302)
  deriving DecidableEq, Repr, Inhabited

/-- What a reader of the management space or the host got back: the replies, newest first. -/
inductive Reply where
  | mgmt (v : Word)
  | host (data : List Byte) (ok poisoned : Bool)
  deriving DecidableEq, Repr, Inhabited

/-- A message that arrives flit by flit on a group (R319): its header fields, the SEQ that comes next, discarded (R420). -/
structure FlitIn where
  group : Nat
  cls   : Nat
  dst   : Nat
  src   : Nat
  nfm1  : Nat
  next  : Nat
  drop  : Bool
  deriving DecidableEq, Repr, Inhabited

/-- The slave port of the time base (R332): the last Sync and delay request, by SEQ, with their times; the mean path delay. -/
structure PtpPort where
  syncSeq : Nat := 0
  syncAt  : Option Nat := none       -- t2 of a Sync whose t1 a Follow_Up is to bring
  sync    : Option (Nat × Nat) := none -- t1, t2
  reqSeq  : Nat := 0
  reqAt   : Option Nat := none       -- t3 of the outstanding delay request
  delay   : Int := 0                 -- mean path delay
  good    : Bool := false            -- in this sync interval an offset below 16 counts has been measured, and none of 16 or more (R333)
  at_     : Nat := 0                 -- time of the last sync interval
  deriving DecidableEq, Repr, Inhabited

/-- One request of the host or the device to another package, of up to 16 bytes: its bytes, their marks, the cause of a failure, answered. -/
structure DevPiece where
  chip : Nat
  size : Nat
  sent : Nat
  data : BitVec 128 := 0
  psn  : BitVec 4 := 0
  late : Nat := 0
  back : Bool := false
  deriving DecidableEq, Repr, Inhabited

/-- Whose request it is: a host access at a host address (R331), a read by the device at an address (R294, R295, R326, R349), the packet of a cluster's trace
drain (R336), a cluster's stall record (R345), a cluster's stop dump (R348), a step of a grid's completion signal (R297), or nobody's any
more. -/
inductive DevUse where
  | host (addr : Nat)
  | read (n : Nat)
  | trace (cluster : Nat)
  | stall (cluster : Nat)
  | dump (cluster : Nat)
  | signal (grid : Nat)
  | spent
  deriving DecidableEq, Repr, Inhabited

/-- An access of the host or the device to another package that awaits its answers (R331). -/
structure DevReq where
  use   : DevUse
  addr  : Nat                        -- the virtual address of its first byte
  write : Bool
  asid  : Nat
  pieces : List DevPiece
  deriving DecidableEq, Repr, Inhabited

/-- What happens next (notes/assumptions/2.md): the model's own plain-data schedule, which stands for every order the spec leaves
open. Nothing constrains it. -/
inductive Act where
  | event (e : Instr)                                  -- one of the part's steps
  | clock (cluster : Nat)                              -- one core clk of a cluster: R309 to R312
  | elapse (counts adv : Nat)                          -- 1/16 ns pass; TIMEBASE's oscillator and servo count `adv`
  | grandmaster (yes : Bool)                           -- firmware's best master clock algorithm decides (R332)
  | dieTemp (die temp : Nat)                           -- a die's hottest sensor is read (R362)
  | advance (op acc : Nat)                             -- an access held at its core goes on (R132, R135)
  | replaceL1 (core i : Nat)                           -- an L1 line is replaced (R112)
  | replaceCl (cluster i : Nat)                        -- a cluster cache line is replaced
  | replaceSlice (i : Nat)                             -- a home-slice line is replaced
  | writeBack (i sector : Nat)                         -- a home slice writes a 32-byte sector of a line back to HBM (R393)
  | correct (die : Nat)                                -- a correctable error is corrected (R392)
  | upsetHbm (die sector : Nat) (bits : List Word)       -- uncorrectable errors in data (R393), with the bits left: a 32-byte sector of HBM
  | upsetMem (die word : Nat) (bits : Word)                          -- a word of a home slice
  | upsetL1 (core i word : Nat) (bits : Word)                        -- a word of an L1 line
  | upsetCl (cluster i word : Nat) (bits : Word)                     -- a word of a cluster cache line
  | upsetWcb (op acc word : Nat) (bits : Word)                       -- a word of a store in a write-combining buffer
  | upsetScratch (wg word : Nat) (bits : Word)
  | upsetTile (wg tile word : Nat) (bits : Word)
  | upsetB (wg slot word : Nat) (bits : Word)
  | upsetEngine (op opnd x y : Nat)                    -- an operand element of a started command (R396)
  | upsetReg (warp reg lane : Nat) (bits : Word)
  | upsetScalar (warp reg : Nat) (bits : Word)
  | upsetCarry (warp c ch : Nat) (h g : Word)
  | upsetStack (warp i : Nat)                          -- uncorrectable errors in metadata (R397)
  | upsetTagL1 (core i : Nat)
  | upsetTagCl (cluster i : Nat)
  | upsetTagSlice (i : Nat)
  | upsetAcb (core i : Nat)
  | upsetRemap (i : Nat)                               -- a remap-filter entry
  | upsetTracking (die asid va : Nat)            -- a home slice's tracking entry of a grain
  | upsetCounter (core : Nat)                          -- a key tracking counter of a core's store queue
  | management (ma : Nat) (data : Option Word)         -- firmware's own management access (R351)
  | rom                                                -- the ROM goes on to its next stage (R353, R429)
  deriving DecidableEq, Repr

/-- The machine: one package. -/
structure State where
  agenda  : List Act := []           -- MODEL: what happens next
  picked  : List Nat := []           -- MODEL: warps picked in this clk that have not issued yet
  cur     : Nat := 0                 -- MODEL: the warp that issues
  warps   : List Warp := []
  wgs     : List Workgroup := []
  grids   : List Grid := []
  ops     : List Op := []
  stamp   : Nat := 0                 -- MODEL: counts entries into write-combining buffers and other arrivals
  dies    : List Die
  clusters : List Cluster
  cores   : List Core
  mem     : Bytes := []              -- memory as its home answers: die d, physical address PA at 2^40 d + PA
  memPsn  : List Nat := []           -- poisoned words of it (address div 4), rising
  slices  : List SliceLine := []     -- lines of the home-slice caches, newest first (R112)
  remap   : List RemapEntry := []    -- entries of the remap filters, newest first (R117)
  frameWant : List (Nat × Nat) := [] -- pages an access has found without a frame: ASID, page address (R115)
  frameLogged : List (Nat × Nat) := [] -- pages whose wait for a frame has been logged: ASID, page address (R403)
  atomQ   : List AtomReq := []       -- atomic requests at the home slices, in order of arrival
  msgs    : List Msg := []
  sends   : Nat := 0                 -- MODEL: counts messages sent
  notices : List (Nat × Option Nat × Nat × Nat) := [] -- completion notices: die, chip, operation, scope code (R327)
  holds   : List Hold := []
  jobs    : List PoolJob := []
  nreds   : List NredInst := []
  cands   : List Candidate := []     -- entries the distributor has seen
  devBuf  : Nat := 0                 -- device entries in the Rileveken die's buffer (R303)
  seqNo   : Nat := 0                 -- last placement sequence number (R301)
  starts  : Nat := 0                 -- MODEL: counts grid starts
  gangs   : List (Nat × Nat × Nat) := [] -- gang-map entries read: ASID, %grid, chip (R326)
  now     : Nat := 0                 -- MODEL: time since power-good, in 1/16 ns
  tb      : Nat := 0                 -- TIMEBASE (R332)
  tbHold  : Nat := 0                 -- counts a backward correction still holds TIMEBASE (R332)
  tbOk    : Nat := 0                 -- sync intervals in a row with an offset below 16 counts (R333)
  tbLast  : Nat := 0                 -- time of the last sync message
  tbLost  : Bool := false            -- lock has been lost and not regained (R415)
  tbLatch : Word := 0                -- TBHI latch
  mgmt    : List (Nat × Word) := []  -- management registers by address MA; unlisted: the register's reset value
  stallLatch : List (Nat × Word) := [] -- high-word latches of stall counters by their MA (R342)
  replies : List Reply := []         -- what readers got, newest first
  devReqs : List DevReq := []        -- accesses of the host and the device that other packages answer
  flitIn  : List FlitIn := []        -- messages of which some flits have arrived (R319)
  ptp     : PtpPort := {}            -- the slave port of the time base (R332)
  slowQ   : List Nat := []           -- cores whose store queue has lost a key tracking counter (R397)
  outbox  : List OutMsg := []        -- what left the package, newest first
  links   : List DieLink             -- link 3 d + p: p 0 centre, 1 side A, 2 side B (R415)
  groupUp : List GroupTrain := []    -- fibre groups in training (R318)
  optics  : List GroupLoss := []     -- what fibre groups have lost (R419)
  crcFails : List (Nat × Nat) := []  -- group, consecutive failures of its present flit (R419)
  recal   : List (Nat × Nat) := []   -- group, time of its last wavelength recalibration (R315)
  lastFlit : List (Nat × Nat) := []  -- group, time of the last time flit exchanged (R318)
  pxSince : Nat := 0                 -- time the outstanding peer access was sent (R355)
  pxRead  : Bool := false            -- it is a read
  aperture : Bool := true            -- the bootstrap aperture still decodes (R355)
  hbm     : BitVec 16                -- CAPS_PKG.STACKS (R25)
  capsLink : Word                    -- CAPS_LINK (R28)
  bootmask : BitVec 16               -- fused boot groups (R355)
  hostGroup : Option Nat := none     -- fused host group of a bridge package (R355)
  svnMin  : Nat := 0                 -- fused SVNMIN (R359)
  retired : List Word := []          -- the flash's retirement list (R426)
  flash   : List FwImage := []       -- slots 0 and 1 (R429)
  slotRun : Nat := 0                 -- the slot that booted
  bootAt  : Nat := 0                 -- time its firmware started (R428)
  attest  : Bytes := []              -- attestation area (R359)
  measured : BitVec 384 := 0         -- measurement of the running image (R359)
  powered : Bool := true             -- compute dies and stacks have power (R427)
  hotSince : List (Nat × Nat) := []  -- dies at TJMAX: die, time (R427)
  deriving DecidableEq, Repr

/-- A compute die of a full part (R14), with nothing measured yet. -/
def Die.full : Die :=
  { clmask := BitVec.allOnes 16, coremask := List.replicate 16 (BitVec.allOnes 12),
    sliceLo := BitVec.allOnes 32, sliceHi := BitVec.allOnes 32 }

/-- The machine right after power-good (R353): BOOTSTAT and every other register at its reset value (an empty `mgmt` map), no
warp, no workgroup and no grid (no warp exists at device reset, spec/03), memory with nothing listed. The part is a full part
(notes/assumptions/4.md); every register the spec gives no reset value is 0. -/
def State.reset : State :=
  { dies := List.replicate 4 Die.full
    clusters := List.replicate 64 Cluster.mk0
    cores := List.replicate 768 Core.mk0
    links := List.replicate 12 DieLink.mk0
    hbm := BitVec.allOnes 16
    capsLink := 0x03804040#32
    bootmask := 0 }

end Sys2Proof.Machine
end

