-- ==== Sys2Proof/Machine/Mem.lean ====
section
/-! DEFINITION. Sparse bytes in canonical form (addresses rising, no zero byte listed), little-endian words over them (R6), and
rising lists of marks for poisoned words (R393). -/

namespace Sys2Proof.Machine

open Sys2Proof

/-- The byte at an address; 0 where nothing is listed (notes/assumptions/1.md). -/
def Memory.get : Bytes → Nat → Byte
  | [], _ => 0
  | (a, v) :: m, x => if a = x then v else Memory.get m x

/-- The bytes with one byte written; writing 0 removes the entry. -/
def Memory.set : Bytes → Nat → Byte → Bytes
  | [], x, v => if v = 0 then [] else [(x, v)]
  | (a, u) :: m, x, v =>
    if x < a then (if v = 0 then (a, u) :: m else (x, v) :: (a, u) :: m)
    else if x = a then (if v = 0 then m else (x, v) :: m)
    else (a, u) :: Memory.set m x v

/-- Whether every listed address lies above b and the form is canonical. -/
def Memory.wfFrom : Nat → Bytes → Bool
  | _, [] => true
  | b, (a, v) :: m => decide (b ≤ a) && v != 0 && Memory.wfFrom (a + 1) m

/-- The canonical form: addresses strictly rising, no entry equal to 0. -/
def Memory.wf (m : Bytes) : Bool := Memory.wfFrom 0 m

/-- n bytes from address a, least significant first (R6). -/
def Memory.getN (m : Bytes) : Nat → Nat → Nat
  | _, 0 => 0
  | a, n + 1 => (Memory.get m a).toNat + 256 * Memory.getN m (a + 1) n

/-- n bytes of v stored from address a up (R6). -/
def Memory.setN (m : Bytes) : Nat → Nat → Nat → Bytes
  | _, 0, _ => m
  | a, n + 1, v => Memory.setN (Memory.set m a (BitVec.ofNat 8 v)) (a + 1) n (v / 256)

/-- The bytes of v whose enable bit is set, stored from address a up. -/
def Memory.setMasked (m : Bytes) : Nat → Nat → Nat → Nat → Bytes
  | _, 0, _, _ => m
  | a, n + 1, be, v =>
    Memory.setMasked (if be % 2 = 1 then Memory.set m a (BitVec.ofNat 8 v) else m) (a + 1) n (be / 2) (v / 256)

/-- A 32-bit word. -/
def Memory.word (m : Bytes) (a : Nat) : Word := BitVec.ofNat 32 (Memory.getN m a 4)

/-- A list of bytes stored from address a up. -/
def Memory.setList (m : Bytes) : Nat → List Byte → Bytes
  | _, [] => m
  | a, b :: bs => Memory.setList (Memory.set m a b) (a + 1) bs

/-- n bytes as a list. -/
def Memory.list (m : Bytes) (a n : Nat) : List Byte := (List.range n).map fun i => Memory.get m (a + i)

/-- n bytes from a set to 0. -/
def Memory.clear (m : Bytes) (a n : Nat) : Bytes := m.filter fun c => !(decide (a ≤ c.1) && decide (c.1 < a + n))

/-- The bytes of a span moved so that its first is at 0. -/
def Memory.slice (m : Bytes) (a n : Nat) : Bytes :=
  (m.filter fun c => decide (a ≤ c.1) && decide (c.1 < a + n)).map fun c => (c.1 - a, c.2)

/-- A span of bytes written from address a. -/
def Memory.paste (m : Bytes) (a n : Nat) (b : Bytes) : Bytes :=
  b.foldl (fun m c => if c.1 < n then Memory.set m (a + c.1) c.2 else m) (Memory.clear m a n)

/-! ### Marks -/

/-- Whether word k is marked. -/
def Marks.has (p : List Nat) (k : Nat) : Bool := p.contains k

/-- The marks with k added, kept rising. -/
def Marks.add : List Nat → Nat → List Nat
  | [], k => [k]
  | a :: p, k => if k < a then k :: a :: p else if k = a then a :: p else a :: Marks.add p k

/-- The marks without k. -/
def Marks.del (p : List Nat) (k : Nat) : List Nat := p.filter fun a => a != k

/-- The mark of word k set or cleared. -/
def Marks.put (p : List Nat) (k : Nat) (b : Bool) : List Nat := if b then Marks.add p k else Marks.del p k

/-- The marks after `size` bytes with enables `be` are written from byte address a: word j of the data carries the mark `psn`
bit j; a word that is not wholly covered keeps its own mark as well (R393). -/
def Marks.write (p : List Nat) (a size be psn : Nat) : List Nat :=
  (List.range (size / 4 + 2)).foldl (fun p j =>
    let k := a / 4 + j
    let covered := (List.range 4).all fun b =>
      decide (a ≤ 4 * k + b) && decide (4 * k + b < a + size) && (be / 2 ^ (4 * k + b - a)) % 2 == 1
    let touched := (List.range 4).any fun b =>
      decide (a ≤ 4 * k + b) && decide (4 * k + b < a + size) && (be / 2 ^ (4 * k + b - a)) % 2 == 1
    if touched then Marks.put p k ((psn / 2 ^ j) % 2 == 1 || (!covered && Marks.has p k)) else p) p

/-- The marks of the words of `size` bytes from byte address a: bit j is the mark of word a/4 + j. -/
def Marks.read (p : List Nat) (a size : Nat) : Nat :=
  (List.range (size / 4 + 2)).foldr (fun j n =>
    (decide (4 * (a / 4 + j) < a + size) && Marks.has p (a / 4 + j)).toNat * 2 ^ j + n) 0

end Sys2Proof.Machine
end

