-- ==== Sys2Proof/Machine/Regs.lean ====
section
/-! DEFINITION. The management registers as one map by management address MA (R351, R352): their addresses, their reset values,
their stored words. What a read or a write does beyond storing is in Machine/Mgmt.lean. -/

namespace Sys2Proof.Machine

open Sys2Proof

/-- MA of a Rileveken register (R351). -/
def maPkg (off : Nat) : Nat := off

/-- MA of a register of the die at position d (R351). -/
def maDie (d off : Nat) : Nat := 0x1000000 + 0x400000 * d + off

/-- MA of a register of cluster index cl = 16 d + c (R351). -/
def maCl (cl off : Nat) : Nat := maDie (cl / 16) (0x100000 + 0x10000 * (cl % 16) + off)

/-- MA of a register of core index k = 12 cl + j (R351). -/
def maCore (k off : Nat) : Nat := maCl (k / 12) (0x8000 + 0x400 * (k % 12) + off)

/-- The reset value of a register that is stored: WDPERIOD (R60), FAIRWIN (R313), PLACELEAD (R298), LQCTL.LOG2N (R293),
LGCTL.WANTL and WANTF (R317), PWRCTL.LIMIT (R361); every other field resets to 0. -/
def regReset (ma : Nat) : Word :=
  if ma = 0x0030 then BitVec.ofNat 32 (3780 * 2 ^ 16)
  else if ma = 0x0060 then 3200000
  else if 0x0100 ≤ ma ∧ ma < 0x0200 ∧ ma % 16 = 0 then 0x00008004
  else if 0x1000 ≤ ma ∧ ma < 0x1400 ∧ ma % 16 = 0 then 1
  else if 0x1000000 ≤ ma ∧ ma < 0x2000000 ∧ ma % 0x400000 = 0x10 then 4194304
  else if 0x1000000 ≤ ma ∧ ma < 0x2000000 ∧ ma % 0x400000 = 0x14 then 1024
  else 0

/-- A map entry, or the register's reset value. -/
def mapGet (m : List (Nat × Word)) (k : Nat) (dflt : Word) : Word :=
  match m with
  | [] => dflt
  | (a, v) :: m => if a = k then v else mapGet m k dflt

/-- The map with one entry set, keys rising. -/
def mapSet : List (Nat × Word) → Nat → Word → List (Nat × Word)
  | [], k, v => [(k, v)]
  | (a, u) :: m, k, v => if k < a then (k, v) :: (a, u) :: m else if k = a then (k, v) :: m else (a, u) :: mapSet m k v

/-- The stored word of a register. -/
def State.reg (s : State) (ma : Nat) : Word := mapGet s.mgmt ma (regReset ma)

/-- A register's stored word replaced. -/
def State.setReg (s : State) (ma : Nat) (v : Word) : State := { s with mgmt := mapSet s.mgmt ma v }

/-- This package's chip identifier (R323). -/
def State.chip (s : State) : Nat := bitsOf (s.reg 0x0020) 0 20

/-- Registers of other chapters by their names in R352. -/
def trCtl (cl : Nat) : Nat := maCl cl 0x10
def trBaseLo (cl : Nat) : Nat := maCl cl 0x14
def trBaseHi (cl : Nat) : Nat := maCl cl 0x18
def trSize (cl : Nat) : Nat := maCl cl 0x1C
def trWp (cl : Nat) : Nat := maCl cl 0x20
def trRp (cl : Nat) : Nat := maCl cl 0x24
def trDrop (cl : Nat) : Nat := maCl cl 0x28
def stCtl (cl : Nat) : Nat := maCl cl 0x40
def stBaseLo (cl : Nat) : Nat := maCl cl 0x44
def stBaseHi (cl : Nat) : Nat := maCl cl 0x48
def stSize (cl : Nat) : Nat := maCl cl 0x4C
def stWp (cl : Nat) : Nat := maCl cl 0x50
def stRp (cl : Nat) : Nat := maCl cl 0x54
def stLost (cl : Nat) : Nat := maCl cl 0x58
def bpLo (cl n : Nat) : Nat := maCl cl (0x80 + 16 * n)
def bpHi (cl n : Nat) : Nat := maCl cl (0x84 + 16 * n)
def bpAsid (cl n : Nat) : Nat := maCl cl (0x88 + 16 * n)
def dbgCmd (cl : Nat) : Nat := maCl cl 0xC0
def dbgStat (cl : Nat) : Nat := maCl cl 0xC4
def dbgSeq (cl : Nat) : Nat := maCl cl 0xC8
def dumpBaseLo (cl : Nat) : Nat := maCl cl 0xCC
def dumpBaseHi (cl : Nat) : Nat := maCl cl 0xD0
def lgCtl (g : Nat) : Nat := 0x0100 + 16 * g
def lgStat (g : Nat) : Nat := 0x0104 + 16 * g
def lqCtl (q : Nat) : Nat := 0x1000 + 16 * q
def lqBaseLo (q : Nat) : Nat := 0x1004 + 16 * q
def lqBaseHi (q : Nat) : Nat := 0x1008 + 16 * q
def lqTail (q : Nat) : Nat := 0x100C + 16 * q
def flBase (d n : Nat) : Nat := maDie d (0x30 + 16 * n)
def flHead (d n : Nat) : Nat := maDie d (0x34 + 16 * n)
def flTail (d n : Nat) : Nat := maDie d (0x38 + 16 * n)

/-- DIE_ORIENT of the die at position d (R19). -/
def dieOrient (d : Nat) : Word :=
  match d with
  | 0 => 0x0000F400
  | 1 => 0x0005C961
  | 2 => 0x0003DE32
  | _ => 0x0006E353

/-- CAPS_PKG (R25). -/
def State.capsPkg (s : State) : Word := BitVec.ofNat 32 (0xF * 2 ^ 16 + s.hbm.toNat)

/-- CAPS_DIE (R26, R29). -/
def Die.capsDie (d : Die) : Word :=
  let ncore := (d.coremask.zipIdx.map fun (m, c) =>
    if d.clmask.getLsbD c then ((List.range 12).filter fun j => m.getLsbD j).length else 0).sum
  BitVec.ofNat 32 (ncore * 2 ^ 16 + d.clmask.toNat)

/-- CAPS_CL of physical cluster c (R26). -/
def Die.capsCl (d : Die) (c : Nat) : Word := BitVec.ofNat 32 (d.coremask.getD c 0).toNat

/-- Whether core index k is present (R29). -/
def State.corePresent (s : State) (k : Nat) : Bool :=
  match s.dies[k / 192]? with
  | some d => d.clmask.getLsbD (k / 12 % 16) && (d.coremask.getD (k / 12 % 16) 0).getLsbD (k % 12)
  | none => false

/-- Whether cluster index cl is present. -/
def State.clusterPresent (s : State) (cl : Nat) : Bool :=
  match s.dies[cl / 16]? with
  | some d => d.clmask.getLsbD (cl % 16)
  | none => false

end Sys2Proof.Machine
end

