-- ==== Sys2Proof/Machine/Paging.lean ====
section
/-! DEFINITION. Translation: the ASID table, the level-1 and leaf tables, page entries (R114, R356), alias pages (R117, R401), the
access check buffer (R116), home die and home slice (R108), physical memory. -/

namespace Sys2Proof.Machine

open Sys2Proof

/-- The key in `mem` of physical address pa of die d. PA has 40 bits (R114); which of them the fitted stacks hold is `State.fitted`. -/
def physKey (d pa : Nat) : Nat := d * 2 ^ 40 + pa % 2 ^ 40

/-- Bytes that the present stacks of die d hold: 64 GB each, 1 GB = 10^9 bytes (R5, R14, R25, R31). -/
def State.capacity (s : State) (d : Nat) : Nat :=
  64 * 10 ^ 9 * ((List.range 4).filter fun k => s.hbm.getLsbD (4 * d + k)).length

/-- Whether the present stacks hold physical address pa of die d. The spec does not say which addresses a die with absent stacks lacks, nor
what an access beyond them meets; the model takes the lowest addresses as fitted, and an access beyond them finds a unit that holds no data
and answers no request (R29; DESIGN CHOICE, notes/assumptions/81.md). -/
def State.fitted (s : State) (d pa : Nat) : Bool := decide (pa % 2 ^ 40 < s.capacity d)

/-- The home die of a virtual address (R108). -/
def homeDie (va : Nat) : Nat := va / 2 ^ 50 % 4

/-- The home slice of a virtual address on a die (R108). -/
def homeSlice (d : Die) (va : Nat) : Nat :=
  let f := fun lo n => BitVec.ofNat 6 (field va lo n)
  let j := (f 9 6 ^^^ f 15 6 ^^^ f 21 6 ^^^ f 27 6 ^^^ f 33 6 ^^^ f 39 6 ^^^ f 45 5).toNat
  let present := (List.range 64).filter fun i => if i < 32 then d.sliceLo.getLsbD i else d.sliceHi.getLsbD (i - 32)
  present.getD (j * present.length / 64) 0

/-- The physical address of the ASID table (R352), in die 0's memory (notes/assumptions/6.md). -/
def State.asidTable (s : State) : Nat := bitsOf (s.reg 0x0054) 0 8 * 2 ^ 32 + bitsOf (s.reg 0x0050) 16 16 * 2 ^ 16

/-- A page entry as the walk finds it: where its 16 bytes lie, the address of the page's first byte, its four words. -/
structure Pte where
  key  : Nat
  base : Nat
  w0 : Word
  w1 : Word
  w2 : Word
  w3 : Word
  deriving DecidableEq, Repr, Inhabited

def Pte.v (e : Pte) : Bool := e.w0.getLsbD 31
def Pte.isAlias (e : Pte) : Bool := e.w0.getLsbD 30
def Pte.grain (e : Pte) : Nat := bitsOf e.w0 28 2
def Pte.lg (e : Pte) : Bool := e.w0.getLsbD 27
def Pte.wr (e : Pte) : Bool := e.w0.getLsbD 26
def Pte.atomics (e : Pte) : Bool := e.w0.getLsbD 25
def Pte.za (e : Pte) : Bool := e.w0.getLsbD 24
def Pte.frame (e : Pte) : Nat := bitsOf e.w1 0 24
def Pte.cChip (e : Pte) : Nat := bitsOf e.w1 24 5 * 2 ^ 15 + bitsOf e.w3 0 15
def Pte.cAsid (e : Pte) : Nat := bitsOf e.w3 15 13
def Pte.cPage (e : Pte) : Nat := bitsOf e.w3 28 4 * 2 ^ 32 + e.w2.toNat

/-- A valid entry: V = 1 and GRAIN not 3 (R114, R377). -/
def Pte.valid (e : Pte) : Bool := e.v && e.grain != 3

/-- Where the leaf table that holds va's entry lies: the key of its first byte in `mem` (R356). A root or level-1 entry with an uncorrectable
error maps nothing (R397). -/
def State.leafTable (s : State) (asid va : Nat) : Option Nat :=
  let d := homeDie va
  let rootAt := physKey 0 (s.asidTable + 64 * asid + 8 * d)
  let root := Memory.getN s.mem rootAt 8
  if root % 2 = 0 ∨ Marks.read s.memPsn rootAt 8 ≠ 0 then none
  else
    let l1At := physKey d (field root 16 24 * 2 ^ 16 + 8 * field va 33 17)
    let l1 := Memory.getN s.mem l1At 8
    if l1 % 2 = 0 ∨ Marks.read s.memPsn l1At 8 ≠ 0 then none else some (physKey d (field l1 16 24 * 2 ^ 16))

/-- The entry at an index of a leaf table. -/
def State.pteAt (s : State) (leaf idx base : Nat) : Pte :=
  let k := leaf + 16 * idx
  { key := k, base := base, w0 := Memory.word s.mem k, w1 := Memory.word s.mem (k + 4), w2 := Memory.word s.mem (k + 8)
    w3 := Memory.word s.mem (k + 12) }

/-- Whether the words of an entry carry an uncorrectable error (R397). -/
def State.entryBad (s : State) (e : Pte) : Bool := Marks.read s.memPsn e.key 16 != 0

/-- The page entry of a virtual address (R114, R356): the entry of a 2 MiB page lies at the page's first 64 KiB; an entry with LG
elsewhere is no page, nor is one with an uncorrectable error (R397). -/
def State.walk (s : State) (asid va : Nat) : Option Pte :=
  match s.leafTable asid va with
  | none => none
  | some leaf =>
    let idx := field va 16 17
    let big := s.pteAt leaf (idx / 32 * 32) (va / 2 ^ 21 * 2 ^ 21)
    if big.v && big.lg then (if s.entryBad big then none else some big)
    else
      let e := s.pteAt leaf idx (va / 2 ^ 16 * 2 ^ 16)
      if e.lg || s.entryBad e then none else some e

/-- Where an access to a virtual address goes. -/
inductive Place where
  | unmapped
  | alloc (asid va : Nat)             -- the canonical page has no frame yet
  | here (key : Nat) (asid va : Nat)  -- physical byte, canonical ASID and address
  | foreign (chip asid va : Nat)      -- another package's page
  | absent                            -- a frame beyond the fitted memory: no unit answers (notes/assumptions/81.md)
  deriving DecidableEq, Repr, Inhabited

/-- A canonical page's byte. -/
def State.placeIn (s : State) (e : Pte) (asid va : Nat) : Place :=
  let pa := e.frame * 2 ^ 16 + (va - e.base)
  if e.za then .alloc asid va else if s.fitted (homeDie va) pa then .here (physKey (homeDie va) pa) asid va else .absent

/-- The remap-filter entry that holds a page (R117). -/
def State.remapHit (s : State) (asid va : Nat) : Option RemapEntry :=
  s.remap.find? fun r => r.asid == asid && decide (r.base ≤ va) && decide (va < r.base + r.size)

/-- The entry of a page as its home slice has it: the remap filter's copy of an alias entry, else the walk's (R117). -/
def State.entryAt (s : State) (asid va : Nat) : Option Pte :=
  match s.remapHit asid va with
  | some r => some { key := 0, base := r.base, w0 := r.words.getD 0 0, w1 := r.words.getD 1 0, w2 := r.words.getD 2 0, w3 := r.words.getD 3 0 }
  | none => s.walk asid va

/-- The canonical byte that a virtual address names (R117). -/
def State.place (s : State) (asid va : Nat) : Place :=
  match s.entryAt asid va with
  | none => .unmapped
  | some e =>
    if !e.valid then .unmapped
    else if e.isAlias then
      let cva := e.cPage * 2 ^ 16 + (va - e.base)
      if e.cChip != s.chip then .foreign e.cChip e.cAsid cva
      else
        match s.walk e.cAsid cva with
        | some c => if c.valid && !c.isAlias then s.placeIn c e.cAsid cva else .unmapped
        | none => .unmapped
    else s.placeIn e asid va

/-- An access to an alias page reaches the slice of the alias address: a filter miss reads the alias entry and installs it (R117). With 1,024
entries of that slice in place the oldest leaves (DESIGN CHOICE, notes/assumptions/13.md). -/
def State.remapFill (s : State) (asid va : Nat) : State :=
  match s.remapHit asid va, s.walk asid va with
  | none, some e =>
    if e.valid && e.isAlias then
      let d := homeDie va
      let j := homeSlice (s.dies.getD d Die.full) va
      let r : RemapEntry := { die := d, slice := j, asid := asid, base := e.base, size := if e.lg then 2 ^ 21 else 2 ^ 16, words := [e.w0, e.w1, e.w2, e.w3] }
      let mine := fun (x : RemapEntry) => x.die == d && x.slice == j
      let rest := if (s.remap.filter mine).length < 1024 then s.remap
        else match (s.remap.filter mine).getLast? with
          | some old => s.remap.erase old
          | none => s.remap
      { s with remap := r :: rest }
    else s
  | _, _ => s

/-- The page of a canonical address that has no frame is wanted by an access: its frame is allocated from now on (R115). -/
def State.wantFrame (s : State) (asid va : Nat) : State :=
  match s.place asid va with
  | .alloc ca cva =>
    match s.walk ca cva with
    | some e => if s.frameWant.contains (ca, e.base) then s else { s with frameWant := (ca, e.base) :: s.frameWant }
    | none => s
  | _ => s

/-- Word 0 with V cleared. -/
def noPage : Word := 0

/-- What an access check probe returns for the page of va (R116, R401): word 0 of the page entry, for an alias page with WR and
AT anded with the canonical entry's and V clear unless both are valid. A root or level-1 entry that is not there: V = 0. -/
def State.probeWord (s : State) (asid va : Nat) : Word :=
  match s.walk asid va with
  | none => noPage
  | some e =>
    if !e.v then noPage
    else if e.isAlias then
      let cva := e.cPage * 2 ^ 16 + (va - e.base)
      let c : Word :=
        if e.cChip != s.chip then Config.foreignPte e.cChip e.cAsid cva s.stamp
        else match s.walk e.cAsid cva with
          | some c => c.w0
          | none => noPage
      if c.getLsbD 31 && !c.getLsbD 30 && bitsOf c 28 2 != 3 then e.w0 &&& (c ||| 0xF9FFFFFF#32) else noPage
    else e.w0

/-- The page of va for the access check buffer: an entry for a 2 MiB page covers 32 of 64 KiB (R114). -/
def AcbEntry.covers (e : AcbEntry) (asid va : Nat) : Bool :=
  e.asid == asid && (if e.lg then va / 2 ^ 21 == e.page / 32 else va / 2 ^ 16 == e.page)

/-- What a check of one address finds: passed with the page's word 0, a miss, or a cause of R377. -/
inductive Chk where
  | ok (w0 : Word)
  | miss
  | fail (cause : Nat)
  deriving DecidableEq, Repr, Inhabited

/-- Mapping, store and atomic permission of a page's word 0, in the order of R378. -/
def permCheck (w0 : Word) (write atomics : Bool) : Chk :=
  if !w0.getLsbD 31 || bitsOf w0 28 2 == 3 then .fail 0x10
  else if write && !w0.getLsbD 26 then .fail 0x11
  else if atomics && !w0.getLsbD 25 then .fail 0x12
  else .ok w0

/-- The access check of a core (R116). -/
def State.acbCheck (s : State) (core asid va : Nat) (write atomics : Bool) : Chk :=
  match ((s.cores.getD core Core.mk0).acb.find? fun e => e.covers asid va) with
  | none => .miss
  | some e => permCheck e.word0 write atomics

/-- The grain in bytes of a page's word 0 (R113). -/
def grainBytes (w0 : Word) : Nat :=
  match bitsOf w0 28 2 with
  | 0 => 32
  | 1 => 128
  | _ => 512

/-- The 512 entries of an access check buffer (R116): a new entry replaces one that covers the same page; in a full buffer the model drops the
oldest installed, an order the spec does not state (DESIGN CHOICE, notes/assumptions/13.md). -/
def acbInstall (acb : List AcbEntry) (e : AcbEntry) : List AcbEntry :=
  (e :: acb.filter fun x => !(x.asid == e.asid && x.page == e.page)).take 512

end Sys2Proof.Machine
end

