-- ==== Sys2Proof/Machine/Slice.lean ====
section
/-! DEFINITION. The home slices' caches over the HBM (R112, R113, R357, R393): fills, writes at home, write-backs, and home memory by virtual
address. `State.mem` is what the home answers; a slice line says where the HBM below differs from it. -/

namespace Sys2Proof.Machine

open Sys2Proof

/-! ### Marks and bytes of one 32-byte sector -/

/-- The eight words of the sector that holds key k. -/
def sectorWords (k : Nat) : List Nat := (List.range 8).map fun i => k / 32 * 8 + i

/-- The mask of sector i of a line's 1,024 data bits. -/
def sectorMask (i : Nat) : BitVec 1024 := BitVec.ofNat 1024 ((2 ^ 256 - 1) * 2 ^ (256 * i))

/-- The poison marks of a line's 32 words as `mem` has them. -/
def State.lineMarks (s : State) (key : Nat) : BitVec 32 :=
  BitVec.ofNat 32 ((List.range 32).foldr (fun k x => (Marks.has s.memPsn (key / 4 + k)).toNat * 2 ^ k + x) 0)

/-- Whether the slice line holds the byte at a key. -/
def SliceLine.has (l : SliceLine) (key : Nat) : Bool :=
  decide (l.key ≤ key) && decide (key < l.key + 128) && l.valid.getLsbD ((key - l.key) / 32)

/-- The slice line that holds the byte at a key. -/
def State.sliceOf (s : State) (key : Nat) : Option SliceLine := s.slices.find? fun l => l.has key

/-- What the HBM holds of a byte, behind the home slices (R357). -/
def State.hbmByte (s : State) (key : Nat) : Byte :=
  match s.sliceOf key with
  | some l => BitVec.ofNat 8 (l.under.toNat / 256 ^ (key - l.key))
  | none => Memory.get s.mem key

/-- The HBM's poison mark of the byte's sector. -/
def State.hbmMark (s : State) (key : Nat) : Bool :=
  match s.sliceOf key with
  | some l => l.underPsn.getLsbD ((key - l.key) / 4)
  | none => Marks.has s.memPsn (key / 4)

/-! ### Write-backs -/

/-- The dirty bytes of sector i, as 32 bits. -/
def SliceLine.dirtyOf (l : SliceLine) (i : Nat) : Nat := l.dirty.toNat / 2 ^ (32 * i) % 2 ^ 32

/-- Sector i written back to the HBM: its dirty bytes go there; one poisoned dirty word poisons the sector, and a mark of the HBM goes only
when the whole sector is written (R393). -/
def State.backSector (s : State) (l : SliceLine) (i : Nat) : SliceLine :=
  let d := l.dirtyOf i
  if d = 0 ∨ l.valid.getLsbD i = false then l
  else
    let byteMask := (List.range 32).foldr (fun b x => x + if d / 2 ^ b % 2 = 1 then 255 * 256 ^ (32 * i + b) else 0) 0
    let m := BitVec.ofNat 1024 byteMask
    let home := BitVec.ofNat 1024 (Memory.getN s.mem l.key 128)
    let bad := (List.range 8).any fun k => Marks.has s.memPsn (l.key / 4 + 8 * i + k) && d / 2 ^ (4 * k) % 16 != 0
    let mark := bad || (d != 2 ^ 32 - 1 && l.underPsn.toNat / 2 ^ (8 * i) % 2 ^ 8 != 0)
    let sect := BitVec.ofNat 32 (255 * 2 ^ (8 * i))
    { l with under := (l.under &&& ~~~m) ||| (home &&& m)
             underPsn := if mark then l.underPsn ||| sect else l.underPsn &&& ~~~sect
             dirty := l.dirty &&& ~~~(BitVec.ofNat 128 ((2 ^ 32 - 1) * 2 ^ (32 * i))) }

/-- A line with its dirty sectors written back. -/
def State.backLine (s : State) (l : SliceLine) : SliceLine := (List.range 4).foldl s.backSector l

/-- A slice line given up as it stands: from now on the home answers what the HBM holds of its valid sectors. -/
def State.sliceForget (s : State) (l : SliceLine) : State :=
  let sectors := (List.range 4).filter fun i => l.valid.getLsbD i
  { s with
    slices := s.slices.filter fun x => !(x.key == l.key)
    mem := sectors.foldl (fun m i => Memory.setN m (l.key + 32 * i) 32 (l.under.toNat / 256 ^ (32 * i))) s.mem
    memPsn := sectors.foldl (fun p i => (List.range 8).foldl (fun p k =>
      Marks.put p (l.key / 4 + 8 * i + k) (l.underPsn.getLsbD (8 * i + k))) p) s.memPsn }

/-- Replacement of a slice line: written back when dirty, then dropped (R112). -/
def State.sliceLeave (s : State) (l : SliceLine) : State := s.sliceForget (s.backLine l)

/-- Whether home slice j of die d has a way for a line: its set holds fewer than 16 (R112). -/
def State.sliceRoom (s : State) (d j asid line : Nat) : Bool :=
  let mine := s.slices.filter fun l => l.die == d && homeSlice (s.dies.getD d Die.full) (128 * l.line) == j
  decide (mine.length < 16) ||
    decide ((mine.filter fun l => Config.cacheSet 3 l.asid l.line % 2048 == Config.cacheSet 3 asid line % 2048).length < 16)

/-- The lines of the grain that holds an address, and the sectors of each that the grain covers (R113). -/
def grainLines (grain va : Nat) : List Nat := if grain = 2 then (List.range 4).map fun i => va / 512 * 4 + i else [va / 128]
def grainSectors (grain va : Nat) : Nat := if grain = 0 then 2 ^ (va % 128 / 32) else 15

/-- One line of a grain fetched from the HBM into its home slice: the sectors that are not there yet. Where no way is free the fetched line
is itself replaced at once; which line is replaced is open (R112, notes/assumptions/13.md). -/
def State.sliceFetch (s : State) (asid grain sectors : Nat) (key line : Nat) : State :=
  let d := homeDie (128 * line)
  let new := { die := d, asid := asid, line := line, key := key, grain := grain, valid := BitVec.ofNat 4 sectors
               under := BitVec.ofNat 1024 (Memory.getN s.mem key 128), underPsn := s.lineMarks key : SliceLine }
  match s.slices.find? fun l => l.key == key with
  | none =>
    if s.sliceRoom d (homeSlice (s.dies.getD d Die.full) (128 * line)) asid line then { s with slices := new :: s.slices } else s
  | some l =>
    if BitVec.ofNat 4 sectors &&& ~~~l.valid = 0 then s
    else
      let grow := fun (l : SliceLine) => if l.key != key then l else
        (List.range 4).foldl (fun (l : SliceLine) i =>
          if l.valid.getLsbD i || !(BitVec.ofNat 4 sectors).getLsbD i then l
          else { l with valid := l.valid ||| BitVec.ofNat 4 (2 ^ i)
                        under := (l.under &&& ~~~(sectorMask i)) ||| (new.under &&& sectorMask i)
                        underPsn := (l.underPsn &&& ~~~(BitVec.ofNat 32 (255 * 2 ^ (8 * i)))) ||| (new.underPsn &&& BitVec.ofNat 32 (255 * 2 ^ (8 * i))) }) l
      { s with slices := s.slices.map grow }

/-- An access at home allocates: a miss fetches the whole grain (R112, R113). key is the physical key of canonical address va. -/
def State.sliceFill (s : State) (key asid va : Nat) : State :=
  let grain := ((s.walk asid va).map Pte.grain).getD 1
  (grainLines grain va).foldl (fun s n => s.sliceFetch asid grain (grainSectors grain va) (key + 128 * n - va) n) s

/-- The bytes from key on that a write of n bytes with enables `be` covers are dirty. -/
def State.sliceDirty (s : State) (key n be : Nat) : State :=
  let mark := fun (l : SliceLine) =>
    if l.key < key + n ∧ key < l.key + 128 then
      { l with dirty := l.dirty ||| BitVec.ofNat 128 (be % 2 ^ n * 2 ^ 128 / 2 ^ (l.key + 128 - key) % 2 ^ 128) }
    else l
  { s with slices := s.slices.map mark }

/-! ### Home memory by virtual address -/

/-- The marks after a write of n bytes from key that no slice line takes, from the marks `old` before it and `new` after it: a sector of the
HBM is marked as a whole, and keeps its mark unless every byte of it is written (R393). -/
def hbmMarks (old new : List Nat) (key n be : Nat) : List Nat :=
  (List.range (n / 32 + 2)).foldl (fun p i =>
    let k := (key / 32 + i) * 32
    let ws := sectorWords k
    let full := (List.range 32).all fun b => decide (key ≤ k + b) && decide (k + b < key + n) && be / 2 ^ (k + b - key) % 2 == 1
    if decide (k < key + n) && (ws.any (Marks.has new) || (!full && ws.any (Marks.has old))) then ws.foldl Marks.add p else p) new

/-- A write at home (R112, R393): n bytes within one line at canonical address va, whose key is given, with byte enables and marks. -/
def State.writeAt (s : State) (key asid va n be data psn : Nat) : State :=
  let s := (s.sliceFill key asid va).sliceDirty key n be
  let new := Marks.write s.memPsn key n be psn
  { s with mem := Memory.setMasked s.mem key n be data
           memPsn := if (s.sliceOf key).isSome then new else hbmMarks s.memPsn new key n be }

/-- n bytes at a virtual address as the home memory holds them, 0 where nothing is mapped; for reads at home of bytes that have
passed their check. -/
def State.homeRead (s : State) (asid va n : Nat) : Nat :=
  match s.place asid va with
  | .here k _ _ => Memory.getN s.mem k n
  | _ => 0

/-- The poison marks of the words of n bytes at home. -/
def State.homePsn (s : State) (asid va n : Nat) : Nat :=
  match s.place asid va with
  | .here k _ _ => Marks.read s.memPsn k n
  | _ => 0

/-- A store of n bytes of one line at home, with byte enables and marks (R393). -/
def State.homeWrite (s : State) (asid va n be data psn : Nat) : State :=
  match s.place asid va with
  | .here k a v => s.writeAt k a v n be data psn
  | _ => s

/-- A list of bytes stored at home, cut at multiples of 32 so that a wholly written word or sector counts as one write (R393). -/
def State.homeWriteList (s : State) (asid va : Nat) (bs : List Byte) : State :=
  (List.range ((va % 32 + bs.length + 31) / 32)).foldl (fun s i =>
    let lo := if i = 0 then va else (va / 32 + i) * 32
    let hi := min (va + bs.length) ((lo / 32 + 1) * 32)
    let data := ((bs.drop (lo - va)).take (hi - lo)).foldr (fun b n => b.toNat + 256 * n) 0
    s.homeWrite asid lo (hi - lo) (2 ^ (hi - lo) - 1) data 0) s

/-- A write of four bytes straight to the HBM, past the home slice (R357): a slice line that holds them keeps its data, and the mark of a
poisoned sector stays, since the sector is written in part (R393). -/
def State.hbmWrite (s : State) (key : Nat) (v : Word) : State :=
  match s.sliceOf key with
  | some l =>
    let m := BitVec.ofNat 1024 ((2 ^ 32 - 1) * 256 ^ (key - l.key))
    let put := fun (x : SliceLine) => if x.key == l.key then
      { x with under := (x.under &&& ~~~m) ||| BitVec.ofNat 1024 (v.toNat * 256 ^ (key - l.key)) } else x
    { s with slices := s.slices.map put }
  | none => { s with mem := Memory.setN s.mem key 4 v.toNat }

end Sys2Proof.Machine
end

