-- ==== Sys2Proof/Machine/Cache.lean ====
section
/-! DEFINITION. Cached lines (R112, R113), the stores on their way to home (R122, R123), and what a core, a cluster or the home
reads of a byte (R119, R121). -/

namespace Sys2Proof.Machine

open Sys2Proof

/-! ### Lines -/

/-- Whether byte b of the line is present: its sector is valid, or the byte was stored (private lines). -/
def Line.has (l : Line) (b : Nat) : Bool := l.valid.getLsbD (b / 32) || l.dirty.getLsbD b

def Line.byte (l : Line) (b : Nat) : Byte := BitVec.ofNat 8 (l.data.toNat / 256 ^ b)

/-- Byte b of the line replaced. -/
def Line.setByte (l : Line) (b : Nat) (v : Byte) : Line :=
  { l with data := BitVec.ofNat 1024 (l.data.toNat - (l.byte b).toNat * 256 ^ b + v.toNat * 256 ^ b) }

/-- The line of an address in a cache. -/
def cacheLine (ls : List Line) (asid va : Nat) : Option Line := ls.find? fun l => l.asid == asid && l.line == va / 128

/-- A present byte and its poison mark. -/
def cacheByte (ls : List Line) (asid va : Nat) : Option (Byte × Bool) :=
  match cacheLine ls asid va with
  | some l => if l.has (va % 128) then some (l.byte (va % 128), l.psn.getLsbD (va % 128 / 4)) else none
  | none => none

/-- The cache with one line changed. -/
def cacheMap (ls : List Line) (asid va : Nat) (f : Line → Line) : List Line :=
  ls.map fun l => if l.asid == asid && l.line == va / 128 then f l else l

/-- One byte stored into a present copy; `psn` is the mark the byte's word takes. -/
def Line.store (l : Line) (b : Nat) (v : Byte) (psn : Bool) : Line :=
  let l := l.setByte b v
  { l with psn := if psn then l.psn ||| BitVec.ofNat 32 (2 ^ (b / 4)) else l.psn }

/-- The marks of the words that a store wholly covers cleared (R393). -/
def Line.uncover (l : Line) (a n be : Nat) : Line :=
  { l with psn := l.psn &&& BitVec.ofNat 32 (2 ^ 32 - 1 -
      ((List.range 32).foldr (fun k x =>
        ((List.range 4).all fun i => decide (a ≤ 4 * k + i) && decide (4 * k + i < a + n)
          && be / 2 ^ (4 * k + i - a) % 2 == 1).toNat * 2 ^ k + x) 0)) }

/-- A store of n bytes (within one line) into a present copy: only bytes of valid sectors change (R112). -/
def cacheStore (ls : List Line) (asid va n be data psn : Nat) : List Line :=
  cacheMap ls asid va fun l =>
    let l := l.uncover (va % 128) n be
    (List.range n).foldl (fun l i =>
      if be / 2 ^ i % 2 = 1 ∧ l.valid.getLsbD ((va % 128 + i) / 32) then
        l.store (va % 128 + i) (BitVec.ofNat 8 (data / 256 ^ i)) (psn / 2 ^ ((va % 4 + i) / 4) % 2 == 1)
      else l) l

/-- A store of n bytes with enables into a private line: it marks the bytes dirty (R110, R112). -/
def cachePrivStore (ls : List Line) (asid va n be data psn : Nat) : List Line :=
  let ls := if (cacheLine ls asid va).isSome then ls
    else { asid := asid, line := va / 128, grain := 1, valid := 0, data := 0, isPriv := true } :: ls
  cacheMap ls asid va fun l =>
    let l := l.uncover (va % 128) n be
    (List.range n).foldl (fun l i =>
      if be / 2 ^ i % 2 = 1 then
        let l := l.store (va % 128 + i) (BitVec.ofNat 8 (data / 256 ^ i)) (psn / 2 ^ ((va % 4 + i) / 4) % 2 == 1)
        { l with dirty := l.dirty ||| BitVec.ofNat 128 (2 ^ (va % 128 + i)) }
      else l) l

/-- Whether a cache of 16-way sets has a way for a line: the line is there, or its set holds fewer than 16 lines (R112). -/
def cacheRoom (level sets : Nat) (ls : List Line) (asid line : Nat) : Bool :=
  decide (ls.length < 16) || (ls.any fun l => l.asid == asid && l.line == line) ||
    decide ((ls.filter fun l => Config.cacheSet level l.asid l.line % sets == Config.cacheSet level asid line % sets).length < 16)

/-- A line's sectors filled from a byte source, dirty bytes kept. -/
def Line.fill (l : Line) (sectors : Nat) (f : Nat → Byte × Bool) : Line :=
  (List.range 128).foldl (fun l b =>
    if sectors / 2 ^ (b / 32) % 2 = 1 ∧ !l.dirty.getLsbD b then
      let (v, p) := f (l.line * 128 + b)
      l.store b v p
    else l)
    { l with valid := l.valid ||| BitVec.ofNat 4 sectors
             psn := BitVec.ofNat 32 ((List.range 32).foldr (fun k x =>
               (l.psn.getLsbD k && !(sectors / 2 ^ (k / 8) % 2 == 1)).toNat * 2 ^ k + x) 0) }

/-- One line filled: the given sectors, from a byte source. -/
def cacheFillLine (ls : List Line) (asid line grain sectors : Nat) (isPriv : Bool) (f : Nat → Byte × Bool) : List Line :=
  let ls := if (cacheLine ls asid (line * 128)).isSome then ls
    else { asid := asid, line := line, grain := grain, valid := 0, data := 0, isPriv := isPriv } :: ls
  cacheMap ls asid (line * 128) fun l => l.fill sectors f

/-- A fill of the grain that holds va (R113); a line that finds no way free is not installed (notes/assumptions/13.md). -/
def cacheFill (level sets : Nat) (ls : List Line) (asid va grain : Nat) (f : Nat → Byte × Bool) : List Line :=
  (grainLines grain va).foldl (fun ls n =>
    if cacheRoom level sets ls asid n then cacheFillLine ls asid n grain (grainSectors grain va) false f else ls) ls

/-- The global copies of a grain dropped (R113, R119): sectors of a 32-byte grain, whole lines otherwise. Private lines are exempt (R110). -/
def cacheDrop (ls : List Line) (asid va grain : Nat) : List Line :=
  if grain = 0 then
    ls.map fun l => if l.asid == asid && l.line == va / 128 && !l.isPriv then
      { l with valid := l.valid &&& BitVec.ofNat 4 (15 - 2 ^ (va % 128 / 32)) } else l
  else if grain = 2 then ls.filter fun l => l.isPriv || !(l.asid == asid && l.line / 4 == va / 512)
  else ls.filter fun l => l.isPriv || !(l.asid == asid && l.line == va / 128)

/-! ### Places of a core -/

def coreDie (k : Nat) : Nat := k / 192
def coreCl (k : Nat) : Nat := k / 12

def State.modCore (s : State) (k : Nat) (f : Core → Core) : State := { s with cores := s.cores.modify k f }
def State.modCluster (s : State) (c : Nat) (f : Cluster → Cluster) : State := { s with clusters := s.clusters.modify c f }
def State.modDie (s : State) (d : Nat) (f : Die → Die) : State := { s with dies := s.dies.modify d f }
def State.modWarp (s : State) (i : Nat) (f : Warp → Warp) : State := { s with warps := s.warps.modify i f }
def State.modWg (s : State) (i : Nat) (f : Workgroup → Workgroup) : State := { s with wgs := s.wgs.modify i f }
def State.modGrid (s : State) (i : Nat) (f : Grid → Grid) : State := { s with grids := s.grids.modify i f }
def State.modOp (s : State) (i : Nat) (f : Op → Op) : State := { s with ops := s.ops.modify i f }
def State.modMsg (s : State) (i : Nat) (f : Msg → Msg) : State := { s with msgs := s.msgs.modify i f }
def State.modAcc (s : State) (i j : Nat) (f : Access → Access) : State :=
  s.modOp i fun o => { o with acc := o.acc.modify j f }

def State.core (s : State) (k : Nat) : Core := s.cores.getD k Core.mk0
def State.cluster (s : State) (c : Nat) : Cluster := s.clusters.getD c Cluster.mk0
def State.die (s : State) (d : Nat) : Die := s.dies.getD d Die.full

/-! ### Stores on their way -/

/-- The stores of global bytes at a given stage, with their issuing core, in order of their stamps. -/
def State.pendingStores (s : State) (stage : Stage) (onCore : Nat → Bool) : List Access :=
  (s.ops.flatMap fun o =>
    if onCore o.core then o.acc.filter fun a => a.write && a.space == .global && a.stage == stage && !a.isAlias else [])

/-- Of two candidates for a byte, the later-stamped. -/
def laterByte (asid va : Nat) (best : Option (Nat × Byte × Bool)) (a : Access) : Option (Nat × Byte × Bool) :=
  if a.asid == asid && decide (a.va ≤ va) && decide (va < a.va + a.size) && a.be.getLsbD (va - a.va) then
    match best with
    | some (st, _) => if st ≤ a.stamp then some (a.stamp, BitVec.ofNat 8 (a.data.toNat / 256 ^ (va - a.va)),
        a.psn.getLsbD (va / 4 - a.va / 4)) else best
    | none => some (a.stamp, BitVec.ofNat 8 (a.data.toNat / 256 ^ (va - a.va)), a.psn.getLsbD (va / 4 - a.va / 4))
  else best

/-- The newest byte among some stores. -/
def newestByte (as : List Access) (asid va : Nat) : Option (Byte × Bool) :=
  (as.foldl (laterByte asid va) none).map fun p => (p.2.1, p.2.2)

/-- The write-combining buffer's byte: stores of the core that have not yet reached the cluster cache (R123). -/
def State.wcbByte (s : State) (k asid va : Nat) : Option (Byte × Bool) :=
  match newestByte (s.pendingStores .wcb fun c => c == k) asid va with
  | some v => some v
  | none => newestByte (s.pendingStores .drained fun c => c == k) asid va

/-- The byte as home holds it. -/
def State.homeByte (s : State) (asid va : Nat) : Byte × Bool :=
  (BitVec.ofNat 8 (s.homeRead asid va 1), s.homePsn asid va 1 % 2 == 1)

/-- The byte at home with the cluster's own stores that have not reached home laid over it. -/
def State.clHomeByte (s : State) (cl asid va : Nat) : Byte × Bool :=
  match newestByte (s.pendingStores .atCl fun c => coreCl c == cl) asid va with
  | some v => v
  | none => s.homeByte asid va

/-- What a core's load reads at home: its own buffer's bytes (R123), the stores of its cluster that are on their way there, the home. A load
that bypasses the cached copies reads the home slice itself under its own buffer's bytes (R121). -/
def State.coreHomeByte (s : State) (k : Nat) (bypass : Bool) (asid va : Nat) : Byte × Bool :=
  match s.wcbByte k asid va with
  | some v => v
  | none => if bypass then s.homeByte asid va else s.clHomeByte (coreCl k) asid va

/-- What the core has of a byte: buffer, then L1 (R112, R123). -/
def State.coreByte (s : State) (k asid va : Nat) : Option (Byte × Bool) :=
  match s.wcbByte k asid va with
  | some v => some v
  | none => cacheByte (s.core k).l1 asid va

/-- What the cluster cache has of a byte, the core's own buffer first. -/
def State.clusterByte (s : State) (k asid va : Nat) : Option (Byte × Bool) :=
  match s.wcbByte k asid va with
  | some v => some v
  | none => cacheByte (s.cluster (coreCl k)).cache asid va

/-- n bytes gathered from a byte source: value and word marks, if every byte is there. -/
def gather (f : Nat → Option (Byte × Bool)) (va n : Nat) : Option (Nat × Nat) :=
  (List.range n).foldr (fun i acc =>
    match acc, f (va + i) with
    | some (v, p), some (b, q) =>
      some (v * 256 + b.toNat, if q then (BitVec.ofNat 4 p ||| BitVec.ofNat 4 (2 ^ ((va + i) / 4 - va / 4))).toNat else p)
    | _, _ => none) (some (0, 0))

/-- The page's grain code of a mapped address, 1 where none is found. -/
def State.grainOf (s : State) (asid va : Nat) : Nat :=
  match s.walk asid va with
  | some e => e.grain
  | none => 1

/-- A private byte as the warp sees it: L1, else the cluster cache, else home (R110). -/
def State.privByte (s : State) (k asid va : Nat) : Byte × Bool :=
  match cacheByte (s.core k).l1 asid va with
  | some v => v
  | none => match cacheByte (s.cluster (coreCl k)).cache asid va with
    | some v => v
    | none => s.homeByte asid va

/-- n private bytes: value and word marks. -/
def State.privRead (s : State) (k asid va n : Nat) : Nat × Nat :=
  (gather (fun a => some (s.privByte k asid a)) va n).getD (0, 0)

/-- Whether the L1 has a way for a private line: an access without one waits until a line is replaced (R110, R112). -/
def State.privRoom (s : State) (k asid va : Nat) : Bool := cacheRoom 1 128 (s.core k).l1 asid (va / 128)

/-- A private line comes into the L1 (R110, R112): from the cluster cache, which fetches it from home when it has a way for it. -/
def State.privFetch (s : State) (k asid va : Nat) : State :=
  let there := fun (ls : List Line) => match cacheLine ls asid va with
    | some l => l.valid == 15
    | none => false
  if there (s.core k).l1 then s
  else
    let cl := coreCl k
    let line := va / 128
    let get := fun b => s.privByte k asid b
    let s := if there (s.cluster cl).cache then s
      else
        let home := fun b => s.homeByte asid b
        let s := match s.place asid (128 * line) with
          | .here key a v => s.sliceFill key a v
          | _ => s
        if cacheRoom 2 4096 (s.cluster cl).cache asid line then
          s.modCluster cl fun c => { c with cache := cacheFillLine c.cache asid line 1 15 true home }
        else s
    s.modCore k fun c => { c with l1 := cacheFillLine c.l1 asid line 1 15 true get }

/-- A private store (R110, R112): the line is allocated in the L1, where the store stays. -/
def State.privWrite (s : State) (k asid va n data psn : Nat) : State :=
  (s.privFetch k asid va).modCore k fun c => { c with l1 := cachePrivStore c.l1 asid va n (2 ^ n - 1) data psn }

/-- The remote-line drop of a die (R120): remote lines leave its L1 and cluster caches, and fills of remote lines on their way are
not installed. -/
def State.dropRemote (s : State) (d : Nat) : State :=
  let keep := fun (l : Line) => l.isPriv || homeDie (l.line * 128) == d
  { s with
    cores := s.cores.mapIdx fun k c => if coreDie k == d then { c with l1 := c.l1.filter keep } else c
    clusters := s.clusters.mapIdx fun i c => if i / 16 == d then { c with cache := c.cache.filter keep } else c
    ops := s.ops.map fun o => if coreDie o.core == d then
      { o with acc := o.acc.map fun a => if homeDie a.va == d || a.stage == .held then a else { a with install := false } } else o }

/-- A private line written back from the L1 to the cluster cache on replacement (R112): its dirty bytes go into the cluster
cache. -/
def writeBackInto (ls : List Line) (l : Line) : List Line := cachePrivStore ls l.asid (l.line * 128) 128 l.dirty.toNat l.data.toNat l.psn.toNat

/-- A private line's dirty bytes written to home. -/
def State.writeLineHome (s : State) (l : Line) : State := s.homeWrite l.asid (l.line * 128) 128 l.dirty.toNat l.data.toNat l.psn.toNat

/-- Replacement of an L1 line: a dirty private line is written back to the cluster cache (R110, R112), once that has a way for it. -/
def State.replaceL1 (s : State) (k i : Nat) : State :=
  match (s.core k).l1[i]? with
  | none => s
  | some l =>
    let out := s.modCore k fun c => { c with l1 := c.l1.eraseIdx i }
    if l.dirty = 0 then out
    else if cacheRoom 2 4096 (s.cluster (coreCl k)).cache l.asid l.line then
      out.modCluster (coreCl k) fun c => { c with cache := writeBackInto c.cache l }
    else s

/-- Replacement of a cluster cache line: a dirty private line is written back to home; the cluster cache is inclusive of its
cores' global lines (R112). -/
def State.replaceCl (s : State) (cl i : Nat) : State :=
  match (s.cluster cl).cache[i]? with
  | none => s
  | some l =>
    let s := s.modCluster cl fun c => { c with cache := c.cache.eraseIdx i }
    if l.isPriv then s.writeLineHome l
    else
      let keep := fun (x : Line) => x.isPriv || !(x.asid == l.asid && x.line == l.line)
      let f := fun (k : Nat) (c : Core) => if coreCl k == cl then { c with l1 := c.l1.filter keep } else c
      { s with cores := s.cores.mapIdx f }

/-- Replacement of a home-slice line: written back to the HBM when dirty (R112). -/
def State.replaceSlice (s : State) (i : Nat) : State :=
  match s.slices[i]? with
  | some l => s.sliceLeave l
  | none => s

end Sys2Proof.Machine
end

