-- ==== Sys2Proof/Machine/Classes.lean ====
section
/-! DEFINITION. What an instruction word names and which family it belongs to: lane registers (R62, R107, R166), the classes that
roles allow (R48), tile and B slots (R71, R72), its length (R157). -/

namespace Sys2Proof

/-- n registers from r up. -/
def span (r n : Nat) : List Nat := (List.range n).map fun i => r + i

def LdSize.words : LdSize → Nat
  | .b64 => 2 | .b128 => 4 | _ => 1
def StSize.words : StSize → Nat
  | .b64 => 2 | .b128 => 4 | _ => 1
def CasSize.words : CasSize → Nat
  | .b32 => 2 | .b64 => 4

/-- The address registers of a lane memory instruction: a pair for a global address (R107). -/
def LmArgs.regs (m : LmArgs) (wide : Bool) : List Nat := span m.addr (if wide then 2 else 1)

/-- The lane registers an instruction names (R62, R107, R166). -/
def laneRegs (i : Instr) : List Nat :=
  match i with
  | .mov d a _ | .not d a _ | .abs d a _ | .neg d a _ | .clz d a _ | .popc d a _ | .frcp d a _ | .frsq d a _ | .fsqrt d a _
  | .fexp2 d a _ | .flog2 d a _ | .ftanh d a _ | .cvt d a _ _ _ _ | .n4unp d a _ => [d, a]
  | .movLane d _ | .movScalar d _ _ | .movi d _ | .moviLiteral d _ | .voteBallot d _ _ => [d]
  | .add d a b _ | .sub d a b _ | .mul d a b _ | .mulhU d a b _ | .mulhS d a b _ | .mad d a b _ | .and d a b _ | .or d a b _
  | .xor d a b _ | .shl d a b _ | .shr d a b _ | .sra d a b _ | .minU d a b _ | .minS d a b _ | .maxU d a b _ | .maxS d a b _
  | .bfeU d a b _ | .bfeS d a b _ | .bfi d a b _ | .sel d a b _ _ | .shflIdx d a b _ | .shflUp d a b _ | .shflDown d a b _
  | .shflXor d a b _ | .fadd d a b _ | .fsub d a b _ | .fmul d a b _ | .ffma d a b _ | .fmin d a b _ | .fmax d a b _
  | .dot2Bf16 d a b _ | .dot4Fp8 d a b _ | .dot8N4o d a b _ | .n4pack d a b _ | .sclx d a b _ => [d, a, b]
  | .cmpU32 _ _ a b _ | .cmpS32 _ _ a b _ | .fcmp _ _ a b _ => [a, b]
  | .ld d m sz sp => span d sz.words ++ m.regs (sp != .priv)
  | .st d m sz sp => span d sz.words ++ m.regs (sp != .priv)
  | .lds d m sz _ => span d sz.words ++ m.regs false
  | .sts d m sz _ => span d sz.words ++ m.regs false
  | .atom d m _ _ => [d.val] ++ m.regs true
  | .red d m _ _ => [d.val] ++ m.regs true
  | .atomcas d m sz _ => span d sz.words ++ m.regs true
  | _ => []

/-- Whether the instruction is of the lane set. -/
def Instr.isLane (i : Instr) : Bool := i.ctorIdx < 70

/-- Matrix and scan commands (R48). -/
def Instr.isMatrix (i : Instr) : Bool :=
  match i with
  | .tcfg .. | .tlda .. | .tldb .. | .mma .. | .tzero .. | .tst .. | .tcvt .. | .ascan .. | .cld .. | .cst .. => true
  | _ => false

/-- Copy commands (R48). -/
def Instr.isCopy (i : Instr) : Bool :=
  match i with
  | .cpyLd .. | .cpySt .. | .cpysLd .. | .cpysSt .. | .cpyc .. | .cpyg .. | .cpyx .. | .mcld .. => true
  | _ => false

/-- Instructions that name a tile slot (R71). -/
def Instr.namesTile (i : Instr) : Bool :=
  match i with
  | .tcfg .. | .tlda .. | .mma .. | .tzero .. | .tst .. | .tcvt .. | .ascan .. => true
  | _ => false

/-- Instructions that name a B slot (R72). -/
def Instr.namesB (i : Instr) : Bool :=
  match i with
  | .tldb .. | .mma .. => true
  | _ => false

/-- Bytes of an instruction. -/
def Instr.size (i : Instr) : Nat := 4 * (encode i).length

end Sys2Proof
end

