-- ==== Sys2Proof/Machine/Ops.lean ====
section
/-! DEFINITION. The named operations that meanings share: registers of a warp, error records, key sets and operations, the
private area, the reconvergence stack, ending a warp, TAKING A TRAP, retiring and issuing an instruction. -/

namespace Sys2Proof.Machine

open Sys2Proof

/-! ### Registers of a warp -/

/-- A lane register of zeros (R61). -/
def LaneReg.zero : LaneReg := { val := List.replicate 32 0, psn := 0 }

def Warp.vreg (w : Warp) (n l : Nat) : Word := (w.v.getD n LaneReg.zero).val.getD l 0

/-- The poison mark of a lane of a register (R393). -/
def Warp.vpsn (w : Warp) (n l : Nat) : Bool := (w.v.getD n LaneReg.zero).psn.getLsbD l

def Warp.sreg (w : Warp) (n : Nat) : Word := w.s.getD n 0

def Warp.spsn (w : Warp) (n : Nat) : Bool := w.sPsn.getLsbD n

/-- A scalar pair, bits 31:0 from the first register (R107). -/
def Warp.spair (w : Warp) (n : Nat) : Nat := (w.sreg n).toNat + 2 ^ 32 * (w.sreg (n + 1)).toNat

/-- A predicate; p7 reads as all ones (R61). -/
def Warp.pred (w : Warp) (p : Nat) : LaneMask := if p = 7 then BitVec.allOnes 32 else w.p.getD p 0

/-- The lanes in which a guarded lane instruction acts (R40, R159). -/
def Warp.acting (w : Warp) (g : Guard) : LaneMask :=
  match g with
  | .always => w.emask
  | .p0 => w.emask &&& w.pred 0
  | .p1 => w.emask &&& w.pred 1
  | .notP0 => w.emask &&& ~~~(w.pred 0)

/-- Lane register n with value f and mark q in the lanes of m, the other lanes kept (R40). -/
def Warp.setLanes (w : Warp) (n : Nat) (m : LaneMask) (f : Nat → Word) (q : Nat → Bool) : Warp :=
  let r : LaneReg := { val := lanes.map fun l => if m.getLsbD l then f l else w.vreg n l
                       psn := laneMask fun l => if m.getLsbD l then q l else w.vpsn n l }
  { w with v := w.v.set n r }

/-- Predicate p with f in the lanes of m; a write to p7 is ignored (R62). -/
def Warp.setPred (w : Warp) (p : Nat) (m : LaneMask) (f : Nat → Bool) : Warp :=
  if p = 7 then w
  else { w with p := w.p.set p (laneMask fun l => if m.getLsbD l then f l else (w.pred p).getLsbD l) }

/-- Scalar register n with a value and its poison mark (R394). -/
def Warp.setS (w : Warp) (n : Nat) (v : Word) (q : Bool) : Warp :=
  { w with s := w.s.set n v
           sPsn := if q then w.sPsn ||| BitVec.ofNat 64 (2 ^ n) else w.sPsn &&& ~~~(BitVec.ofNat 64 (2 ^ n)) }

/-- AFLAGS bits set (R66). -/
def Warp.raise (w : Warp) (f : Word) : Warp := { w with aflags := w.aflags ||| f }

/-- SDEPTH (R42): spilled entries included. -/
def Warp.sdepth (w : Warp) : Nat := w.stack.length + w.spilled

/-- Traps are masked while TRAPAT is valid and SDEPTH lies above it (R196). -/
def Warp.masked (w : Warp) : Bool :=
  match w.trapAt with
  | some n => decide (n < w.sdepth)
  | none => false

/-- A PC as a number, and back, modulo 2^52. -/
def pcAdd (pc : PC) (n : Nat) : PC := pc + BitVec.ofNat 52 n

/-- ROLEWORD (R83); ALLOT is 0 once the warp has ended. -/
def Role.code : Role → Nat
  | .general => 0 | .copy => 1 | .matrix => 2 | .vector => 3

def Role.ofCode (n : Nat) : Role :=
  match n % 4 with
  | 1 => .copy | 2 => .matrix | 3 => .vector | _ => .general

def Warp.roleWord (w : Warp) : Word :=
  BitVec.ofNat 32 (w.desc * 2 ^ 12 + w.cls * 2 ^ 10 + w.role.code * 2 ^ 8 + (if w.status = .running then w.allot else 0))

/-! ### Logs (R384, R398, R414) -/

/-- A record of eight words entered in a log: its WP, RP and LOST registers and its records at management addresses. -/
def State.logTo (s : State) (wp rp lost base : Nat) (ws : List Word) : State :=
  let n := s.reg wp
  if (n - s.reg rp).toNat < 64 then
    let b := base + 32 * (n.toNat % 64)
    let s := ws.zipIdx.foldl (fun s p => s.setReg (b + 4 * p.2) p.1) s
    s.setReg wp (n + 1)
  else s.setReg lost (satInc (s.reg lost))

/-- The package error log (R384). -/
def State.logErr (s : State) (ws : List Word) : State := s.logTo 0x3000 0x3004 0x3008 0x4000 ws

/-- The memory error log of the die at position d (R398). -/
def State.logMem (s : State) (d : Nat) (ws : List Word) : State :=
  s.logTo (maDie d 0x80) (maDie d 0x84) (maDie d 0x88) (maDie d 0x1000) ws

/-- The Rileveken die's memory error log (R398). -/
def State.logHost (s : State) (ws : List Word) : State := s.logTo 0x3020 0x3024 0x3028 0x6000 ws

/-- Word 2 of a record (R385): die, cluster, core of core index k, %warp, slot. -/
def whereWord (k warp slot : Nat) : Word :=
  BitVec.ofNat 32 (k / 192 * 2 ^ 20 + k / 12 % 16 * 2 ^ 16 + k % 12 * 2 ^ 12 + warp % 64 * 2 ^ 6 + slot % 64)

/-- A record's words 0 to 7 (R385, R399). -/
def recordWords (kind cause asid seq : Nat) (place : Word) (addr : Nat) (info info2 : Word) : List Word :=
  [BitVec.ofNat 32 (kind * 2 ^ 24 + cause * 2 ^ 16 + asid), BitVec.ofNat 32 seq, place, BitVec.ofNat 32 addr,
    BitVec.ofNat 32 (addr / 2 ^ 32 % 2 ^ 20), info, info2, 0]

/-- %warp of a warp: %nwarp for a handler warp (R252). -/
def Warp.index (w : Warp) (r : Record) : Nat := if w.handler.isSome then r.nwarp else w.num

/-- A memory error record about a warp's instruction. -/
def State.logMemWarp (s : State) (w : Warp) (kind addr : Nat) (info info2 : Word) : State :=
  match s.wgs[w.wg]? with
  | none => s
  | some g =>
    match s.grids[g.grid]? with
    | none => s
    | some gr => s.logMem (coreDie g.core)
        (recordWords kind 0 gr.asid g.seq (whereWord g.core (w.index gr.lrec) w.slot) addr info info2)

/-! ### Operations and key sets (R130 to R143) -/

/-- How far one access has performed, as a scope code (R122): 0 none, 1 wg, 2 cl, 5 every scope. -/
def Access.level (a : Access) : Nat :=
  if a.write && a.space == .global then
    match a.stage with
    | .wcb | .drained => if a.isAlias then 0 else 1
    | .atCl => if a.isAlias then 0 else 2
    | .done => 5
    | _ => 0
  else if a.stage == .done then 5 else 0

def minLevel (as : List Access) : Nat := as.foldl (fun n a => min n a.level) 5

/-- How far a covered store of a promotion has performed. -/
def storeLevel (ops : List Op) (i : Nat) : Nat :=
  match ops[i]? with
  | some o => if o.status == .performed || o.status == .complete then 5 else minLevel o.acc
  | none => 5

/-- How far an operation has performed (R131). -/
def State.opLevel (s : State) (i : Nat) : Nat :=
  match s.ops[i]? with
  | none => 5
  | some o =>
    if o.status == .performed || o.status == .complete then 5
    else match o.kind with
      | .mem .store _ _ _ _ => minLevel o.acc
      | .steal _ stores => if o.status == .started then (stores.map (storeLevel s.ops)).foldl min 5 else 0
      | _ => 0

/-- Whether an operation is on its way: it has left its warp and has not performed. -/
def State.underWay (s : State) (i : Nat) : Bool :=
  match s.ops[i]? with
  | some o => decide (s.opLevel i < 5) && (o.status == .started || o.acc.any fun a => a.stage != .held && a.stage != .done)
  | none => false

/-- Whether the store queue of a core that has lost a key tracking counter holds its members back: it completes every key only once it holds
no unperformed operation (R397). -/
def State.heldQueue (s : State) (i : Nat) : Bool :=
  match s.ops[i]? with
  | some o => s.slowQ.contains o.core && (List.range s.ops.length).any fun j => ((s.ops[j]?).map Op.core) == some o.core && s.underWay j
  | none => false

/-- Whether a member has performed at a scope, judged on die d (R135, R142, R327, R397). -/
def State.memberAt (s : State) (d : Nat) (m : Member) (t : Scope) : Bool :=
  match m.chip, m.via with
  | none, none => decide (t.code ≤ s.opLevel m.op) && !(s.slowQ != [] && s.heldQueue m.op)
  | c, v =>
    let need := max t.code ((v.map Scope.code).getD 0)
    s.notices.any fun n => n.1 == d && n.2.1 == c && n.2.2.1 == m.op && decide (need ≤ n.2.2.2)

/-- Whether an operation's consume snapshot allows it to perform at T (R135): no constraint beyond its own scope. -/
def State.snapAt (s : State) (o : Op) (t : Scope) : Bool :=
  let t := if o.sc.code < t.code then o.sc else t
  o.snap.all fun m => s.memberAt (coreDie o.core) m t

/-- The set of a key; k15 is empty (R11). -/
def Warp.keySet (w : Warp) (k : Nat) : List Member := if k = 15 then [] else ((w.keys.getD k {}).set)

/-- The union of two sets. -/
def joinSets (a b : List Member) : List Member := a ++ b.filter fun m => !a.contains m

/-- An operation added to key k's set (R133); k15 records nothing. -/
def Warp.produce (w : Warp) (k i : Nat) : Warp :=
  if k = 15 then w
  else
    let e := w.keys.getD k {}
    { w with keys := w.keys.set k { st := .opened, set := joinSets e.set [{ op := i }] } }

/-- A key replaced by a set; it becomes OPEN (R137, R242). -/
def Warp.setKey (w : Warp) (k : Nat) (m : List Member) : Warp :=
  if k = 15 then w else { w with keys := w.keys.set k { st := .opened, set := m } }

/-- The distinct operations of a set (R140). -/
def setCount (ms : List Member) : Nat := (ms.map fun m => (m.op, m.chip)).eraseDups.length

/-- What a producing instruction waits for (R133, R140). -/
def Warp.produceWait (w : Warp) (k : Nat) : Option Wait :=
  if k = 15 then none
  else
    let e := w.keys.getD k {}
    if e.st = .closed then some (.closedKey k) else if 4095 ≤ setCount e.set then some (.keyLimit e.set 1) else none

/-- A set without one operation, of this package (`chip` none) or of another. -/
def dropMember (chip : Option Nat) (i : Nat) (ms : List Member) : List Member := ms.filter fun m => !(m.op == i && m.chip == chip)

/-- A key entry after a member has left; a CLOSED entry that empties becomes IDLE (R133). -/
def KeyEntry.leave (chip : Option Nat) (i : Nat) (e : KeyEntry) : KeyEntry :=
  let set := dropMember chip i e.set
  { st := if e.st = .closed && set.isEmpty then .idle else e.st, set := set }

def Barrier.leave (chip : Option Nat) (i : Nat) (b : Barrier) : Barrier := { b with cur := dropMember chip i b.cur, last := dropMember chip i b.last }

def RingSlot.leave (chip : Option Nat) (i : Nat) (x : RingSlot) : RingSlot := { x with fill := dropMember chip i x.fill, free := dropMember chip i x.free }

/-- Whether two dies cannot reach each other: one of them is isolated (R418, R421). -/
def State.cutOff (s : State) (d e : Nat) : Bool := d != e && ((s.die d).isolated || (s.die e).isolated)

/-- The in-package links from a die to the Rileveken die: its centre link; where that has failed a working side link and the neighbour's centre
link (R418). -/
def State.centreWay (s : State) (d : Nat) : Option (List Nat) :=
  let bad := fun l => (s.links.getD l DieLink.mk0).failed
  if !bad (3 * d) then some [3 * d]
  else [[3 * d + 1, 3 * ((d + 1) % 4)], [3 * d + 2, 3 * ((d + 3) % 4)]].find? fun w => !w.any bad

/-- The links between two dies, 4 the Rileveken die: the side link of neighbours, else their centre links (R418; between dies that face each other
notes/assumptions/57.md). -/
def State.dieWay (s : State) (d e : Nat) : List Nat :=
  let side := fun l => if (s.links.getD l DieLink.mk0).failed then none else some [l]
  let centre := ((if d = 4 then some [] else s.centreWay d).getD []) ++ ((if e = 4 then some [] else s.centreWay e).getD [])
  if d = e then []
  else if d = 4 ∨ e = 4 then centre
  else ((if e = (d + 1) % 4 then side (3 * d + 1) else if e = (d + 3) % 4 then side (3 * d + 2) else none)).getD centre

/-- Whether a link between two dies retrains: it carries no flits meanwhile, so a message between them waits (R416). -/
def State.linkHeld (s : State) (d e : Nat) : Bool := (s.dieWay d e).any fun l => (s.links.getD l DieLink.mk0).training

/-- The die that an operation's notices come from: its own; 4, the Rileveken die, for an operation of another package. -/
def State.noticeDie (s : State) (chip : Option Nat) (i : Nat) : Nat :=
  if chip.isSome then 4 else ((s.ops[i]?).map fun o => coreDie o.core).getD 0

/-- A complete operation, of this package or of another, leaves every set that held it (R133, R137); not on a die that its notice cannot reach
(R421). -/
def State.leaveSets (s : State) (chip : Option Nat) (i : Nat) : State :=
  let cut := fun (k : Nat) => s.cutOff (coreDie k) (s.noticeDie chip i)
  { s with
    warps := s.warps.map fun w =>
      if cut (((s.wgs[w.wg]?).map Workgroup.core).getD 0) then w
      else { w with keys := w.keys.map (KeyEntry.leave chip i), recvq := w.recvq.map fun q => { q with set := dropMember chip i q.set } }
    wgs := s.wgs.map fun g =>
      if cut g.core then g
      else { g with bars := g.bars.map (Barrier.leave chip i)
                    rings := g.rings.map fun r => { r with slots := r.slots.map (RingSlot.leave chip i) } }
    msgs := s.msgs.map fun m => match m.body, m.stage with
      | _, .gone | _, .away => m
      | .splice set tag, _ => { m with body := .splice (dropMember chip i set) tag }
      | _, _ => m }

/-- An operation becomes complete at once (R264, R404, R256). -/
def State.completeOp (s : State) (i : Nat) : State := (s.modOp i fun o => { o with status := .complete }).leaveSets none i

/-- A store of a draining line; `first`: a waiting key or a same-address access needs the line (R123). -/
def Access.drain (asid line : Nat) (first : Bool) (a : Access) : Access :=
  if (a.stage == .wcb || (first && a.stage == .drained)) && a.asid == asid && a.va / 128 == line then
    { a with stage := .drained, first := a.first || first }
  else a

/-- A line of a core's buffer drains (R123). -/
def State.drainLine (s : State) (k asid line : Nat) (first : Bool) : State :=
  { s with ops := s.ops.map fun o => if o.core == k then { o with acc := o.acc.map (Access.drain asid line first) } else o }

/-- The buffer's lines that hold an operation's stores drain, before other lines (R123). -/
def State.drainOp (s : State) (o : Op) : State :=
  o.acc.foldl (fun s a => if a.stage == .wcb || a.stage == .drained then s.drainLine o.core a.asid (a.va / 128) true else s) s

/-- The lines that hold stores of a set drain, since an operation waits on a key with that set (R123). -/
def State.drainMembers (s : State) (ms : List Member) : State :=
  ms.foldl (fun s m => match m.chip, s.ops[m.op]? with
    | none, some o => s.drainOp o
    | _, _ => s) s

/-- A core's write-combining buffer drains (R123). -/
def State.drainCore (s : State) (k : Nat) : State :=
  let f := fun (o : Op) =>
    if o.core == k then { o with acc := o.acc.map fun a => if a.stage == .wcb then { a with stage := .drained } else a } else o
  { s with ops := s.ops.map f }

/-- A consumption by a warp of core k: at pkg or sys scope the die drops its remote lines and the core's buffer drains (R123,
R136); the awaited stores drain. -/
def State.consumed (s : State) (k : Nat) (sc : Scope) (ms : List Member) : State :=
  let s := s.drainMembers ms
  if 4 ≤ sc.code then (s.drainCore k).dropRemote (coreDie k) else s

/-- An operation of warp wi entered with its snapshot, added to its produce key (R133, R134): the snapshot is taken first. -/
def State.issueOp (s : State) (wi : Nat) (w : Warp) (core : Nat) (kind : OpKind) (sc : Scope) (prod cons : Nat)
    (acc : List Access) : State × Nat :=
  let i := s.ops.length
  let snap := w.keySet cons
  let s := if cons = 15 then s else s.consumed core sc snap
  let o : Op := { kind := kind, warp := wi, wg := w.wg, core := core, pc := w.pc, sc := sc, snap := snap, acc := acc }
  let s := { s with ops := s.ops ++ [o] }
  (s.modWarp wi fun w => w.produce prod i, i)

/-! ### The private area (R109) -/

/-- The flat workgroup position (R35). -/
def Workgroup.flat (g : Workgroup) (r : Record) : Nat := g.wg + r.nwg * (g.cl + r.ncl * g.die)

/-- The flat index of a warp's private area (R109). -/
def privIndex (w : Warp) (g : Workgroup) (r : Record) : Nat :=
  match w.handler with
  | some q => r.nwarp * (r.ndie * r.ncl * r.nwg) + 4 * g.flat r + q
  | none => w.num + r.nwarp * g.flat r

/-- The global address of private offset x of lane l (R109). -/
def privAddr (w : Warp) (g : Workgroup) (r : Record) (x l : Nat) : Nat :=
  r.privBase + 32 * r.privSize * privIndex w g r + 128 * (x / 4) + 4 * l + x % 4

/-- At a warp's end its private lines leave the L1 without write-back; what had been written back to the cluster cache stays (R110). -/
def State.dropPriv (s : State) (w : Warp) (g : Workgroup) (gr : Grid) : State :=
  let a := privAddr w g gr.lrec 0 0
  let n := 32 * gr.lrec.privSize
  let keep := fun (l : Line) => !(l.isPriv && l.asid == gr.asid && decide (a ≤ l.line * 128) && decide (l.line * 128 < a + n))
  s.modCore g.core fun c => { c with l1 := c.l1.filter keep }

/-! ### The reconvergence stack (R42 to R46, R387) -/

/-- Capacity in entries (R45). -/
def Record.stackCap (r : Record) : Nat := 32 + 8 * r.spillLines

/-- The private offset and first lane of spilled entry j (R46). -/
def spillOff (r : Record) (j : Nat) : Nat := r.privSize - 4 * (j / 8 + 1)
def spillLane (j : Nat) : Nat := 4 * (j % 8)

/-- The four words of an entry's image (R46). -/
def StackEntry.words (e : StackEntry) : List Word :=
  [e.mask, e.fmt, BitVec.ofNat 32 (e.pc.toNat % 2 ^ 32 / 4 * 4),
    BitVec.ofNat 32 (e.cause.toNat * 2 ^ 24 + e.kind.toNat * 2 ^ 20 + e.pc.toNat / 2 ^ 32)]

/-- The entry of an image (R46). -/
def StackEntry.ofWords (w0 w1 w2 w3 : Word) : StackEntry :=
  { mask := w0, fmt := w1, pc := BitVec.ofNat 52 (bitsOf w3 0 20 * 2 ^ 32 + w2.toNat / 4 * 4)
    kind := BitVec.ofNat 4 (bitsOf w3 20 4), cause := BitVec.ofNat 8 (bitsOf w3 24 8) }

/-- What a push or a pop comes to. -/
inductive StackOut where
  | ok (s : State) (w : Warp)
  | probe (asid va : Nat)              -- the page of the spill line is not in the access check buffer
  | room (asid va : Nat)               -- no way of the L1 is free for the spill line
  | full                               -- beyond capacity
  | spill (off lane : Nat)             -- a spill or fill access fails
  | bad (word : Word)                  -- an entry with an uncorrectable error was to be popped (R397): its word 3
  deriving Repr

/-- The access check of a spilled entry's line. -/
def State.spillCheck (s : State) (w : Warp) (g : Workgroup) (gr : Grid) (j : Nat) (write : Bool) : Chk :=
  let va := privAddr w g gr.lrec (spillOff gr.lrec j) (spillLane j)
  if 2 ^ 52 < va + 16 then .fail 0x14 else s.acbCheck g.core gr.asid va write false

/-- A spilled entry read back from its lines. -/
def State.readSpilled (s : State) (w : Warp) (g : Workgroup) (gr : Grid) (j : Nat) : StackEntry × Bool :=
  let rd := fun i => s.privRead g.core gr.asid (privAddr w g gr.lrec (spillOff gr.lrec j) (spillLane j + i)) 4
  let x := fun i => BitVec.ofNat 32 (rd i).1
  (StackEntry.ofWords (x 0) (x 1) (x 2) (x 3), (List.range 4).any fun i => (rd i).2 != 0)

/-- A spilled entry written to its lines; the words of an entry with an uncorrectable error are poisoned (R393, R397). -/
def State.writeSpilled (s : State) (w : Warp) (g : Workgroup) (gr : Grid) (j : Nat) (e : StackEntry) : State :=
  e.words.zipIdx.foldl (fun s p =>
    s.privWrite g.core gr.asid (privAddr w g gr.lrec (spillOff gr.lrec j) (spillLane j + p.2)) 4 p.1.toNat e.bad.toNat) s

/-- The read of a spilled entry allocates its line in the L1 when a way is free (R110). -/
def State.fillSpilled (s : State) (w : Warp) (g : Workgroup) (gr : Grid) (j : Nat) : State :=
  let va := privAddr w g gr.lrec (spillOff gr.lrec j) (spillLane j)
  if s.privRoom g.core gr.asid va then s.privFetch g.core gr.asid va else s

/-- A push (R43, R45): the lowest entry in hardware spills when 32 are held. -/
def State.push (s : State) (w : Warp) (g : Workgroup) (gr : Grid) (e : StackEntry) : StackOut :=
  if gr.lrec.stackCap < w.sdepth + 1 then .full
  else if w.stack.length < 32 then .ok s { w with stack := e :: w.stack }
  else
    match s.spillCheck w g gr w.spilled true with
    | .miss => .probe gr.asid (privAddr w g gr.lrec (spillOff gr.lrec w.spilled) (spillLane w.spilled))
    | .fail _ => .spill (spillOff gr.lrec w.spilled) (spillLane w.spilled)
    | .ok _ =>
      let va := privAddr w g gr.lrec (spillOff gr.lrec w.spilled) (spillLane w.spilled)
      if s.privRoom g.core gr.asid va then
        .ok (s.writeSpilled w g gr w.spilled (w.stack.getLastD default))
          { w with stack := e :: w.stack.dropLast, spilled := w.spilled + 1 }
      else .room gr.asid va

/-- TRAPAT falls with SDEPTH (R196). -/
def Warp.fixTrapAt (w : Warp) : Warp := if w.masked then w else { w with trapAt := none }

/-- The top entry removed, the next spilled entry read back (R45, R387). -/
def State.popTop (s : State) (w : Warp) (g : Workgroup) (gr : Grid) : StackOut :=
  let w1 := { w with stack := w.stack.drop 1 }
  if w1.spilled = 0 || w1.stack.length ≥ 32 then .ok s w1.fixTrapAt
  else
    let j := w1.spilled - 1
    match s.spillCheck w g gr j false with
    | .miss => .probe gr.asid (privAddr w g gr.lrec (spillOff gr.lrec j) (spillLane j))
    | .fail _ => .spill (spillOff gr.lrec j) (spillLane j)
    | .ok _ =>
      let (e, poisoned) := s.readSpilled w g gr j
      if poisoned then .spill (spillOff gr.lrec j) (spillLane j)
      else .ok (s.fillSpilled w g gr j) ({ w1 with stack := w1.stack ++ [e], spilled := j }).fixTrapAt

/-- FMT as SFMT writes it: bit 14 forced to 0 (R64). -/
def fmtOf (x : Word) : BitVec 16 := BitVec.ofNat 16 (bitsOf x 0 14 + bitsOf x 15 1 * 2 ^ 15)

/-- What a popped entry restores (R43, R64). -/
def Warp.restore (w : Warp) (e : StackEntry) : Warp := { w with emask := e.mask, fmt := fmtOf e.fmt, pc := e.pc }

/-! ### Pools: withdrawal (R250) -/

/-- An MCLD completes with a status word, which s(y) receives (R249). -/
def State.mcldDone (s : State) (i : Nat) (status : Word) : State :=
  match s.ops[i]? with
  | none => s
  | some o =>
    let s := match o.kind with
      | .mcld _ y _ _ => s.modWarp o.warp fun (w : Warp) => if w.status == WarpStatus.running then w.setS y status false else w
      | _ => s
    s.completeOp i

def mcldStatus (kind awaited included : Nat) : Word := BitVec.ofNat 32 (awaited * 2 ^ 24 + included * 2 ^ 16 + kind)

/-- The workgroup of an operation. -/
def State.wgOf (s : State) (i : Nat) : Nat := ((s.ops[i]?).map Op.wg).getD 0

/-- A pool of a grid. -/
def Grid.pool (g : Grid) (n : Nat) : Pool := g.pools.getD n {}

/-- A pool of a grid changed. -/
def State.modPool (s : State) (gi pool : Nat) (f : Pool → Pool) : State :=
  s.modGrid gi fun (g : Grid) => { g with pools := g.pools.modify pool f }

def Pool.discard (p : Pool) (n : Nat) : Pool := { p with discards := min 255 (p.discards + n) }

def Grid.isMember (g : Grid) (pool wi : Nat) : Bool :=
  match g.pools[pool]? with
  | some p => p.members.any fun m => m.wg == wi
  | none => false

/-- A hold's read made due: its fills go to the included MCLDs (R152, R248). An ended record lists the awaited members not included. -/
def State.endHold (s : State) (hi : Nat) (timer : Bool) : State :=
  match s.holds[hi]? with
  | none => s
  | some h =>
    match s.grids[h.grid]? with
    | none => s
    | some gr =>
      let incl := h.included
      let missing := h.awaited.filter fun g => !(incl.any fun i => s.wgOf i == g)
      let kind := if timer then 2 else 1
      let fills := incl.map fun i => ({ op := i, kind := kind, awaited := h.awaited.length, included := incl.length } : Fill)
      let job : PoolJob := { asid := gr.asid, va := h.va, nlines := h.nlines, fills := fills, src := incl.headD 0 }
      let s := { s with jobs := s.jobs ++ [job] }
      let s := if timer then s.modPool h.grid h.pool fun p => { p with timeouts := min 255 (p.timeouts + 1) } else s
      let close := fun (h : Hold) =>
        { h with isOpen := false, awaited := missing, included := [], endedAt := s.now, free := !timer || missing.isEmpty }
      { s with holds := s.holds.modify hi close }

/-- The home-slice clk of a time (R17: 560 of 1,008 ticks a ns; a count is 63). -/
def sliceClk (t : Nat) : Nat := t * 63 / 560

/-- An own read (R248). -/
def State.ownRead (s : State) (i kind asid va n : Nat) : State :=
  { s with jobs := s.jobs ++ [{ asid := asid, va := va, nlines := n, fills := [{ op := i, kind := kind, awaited := 0, included := 0 }], src := i }] }

/-- The entry of a slice's table that a new hold takes (R248): a free one, else that of the ended record that ended earliest, with
the record's index; none while all 32 hold open holds. -/
def State.holdEntry (s : State) (d slice : Nat) : Option (Nat × Option Nat) :=
  let used := (List.range s.holds.length).filter fun hi => match s.holds[hi]? with
    | some h => h.die == d && h.slice == slice && !h.free
    | none => false
  let entryOf := fun hi => ((s.holds[hi]?).map Hold.entry).getD 0
  match (List.range 32).find? fun e => !(used.any fun hi => entryOf hi == e) with
  | some e => some (e, none)
  | none =>
    let keyOf := fun hi => (((s.holds[hi]?).map fun h => sliceClk h.endedAt).getD 0) * 32 + entryOf hi
    let ended := used.filter fun hi => ((s.holds[hi]?).map fun h => !h.isOpen).getD false
    match ended with
    | [] => none
    | x :: xs =>
      let b := xs.foldl (fun b hi => if keyOf hi < keyOf b then hi else b) x
      some (entryOf b, some b)

/-- A member's MCLD at the home slice (R248): it strikes itself from an ended record and reads for itself, joins or queues behind an open
hold, opens one, or reads for itself where the table is full. -/
def State.enterHold (s : State) (i wg gi pool asid va n tmo : Nat) : State :=
  let d := homeDie va
  let slice := homeSlice (s.die d) va
  let same := fun (h : Hold) => !h.free && h.die == d && h.slice == slice && h.grid == gi && h.pool == pool && h.va == va && h.nlines == n
  match s.holds.findIdx? fun h => same h && !h.isOpen && h.awaited.contains wg with
  | some hi =>
    let strike := fun (h : Hold) =>
      let aw := h.awaited.filter fun g => g != wg
      { h with awaited := aw, free := aw.isEmpty }
    ({ s with holds := s.holds.modify hi strike }).ownRead i 3 asid va n
  | none =>
    match s.holds.findIdx? fun h => same h && h.isOpen with
    | some hi =>
      let put := fun (h : Hold) => if h.included.any fun j => s.wgOf j == wg then { h with queued := h.queued ++ [i] }
        else { h with included := h.included ++ [i] }
      { s with holds := s.holds.modify hi put }
    | none =>
      match s.holdEntry d slice with
      | none => s.ownRead i 4 asid va n
      | some (e, old) =>
        let drop := fun (h : Hold) => { h with free := true }
        let s := match old with
          | some hi => { s with holds := s.holds.modify hi drop }
          | none => s
        let aw := match s.grids[gi]? with
          | some gr => (gr.pool pool).members.map PoolMember.wg
          | none => []
        let h : Hold := { die := d, slice := slice, grid := gi, pool := pool, va := va, nlines := n, isOpen := true, awaited := aw,
                          included := [i], startAt := s.now, tmo := tmo, entry := e }
        { s with holds := s.holds ++ [h] }

/-- MCLDs queued behind a hold that has ended open the next hold, in order, before any other MCLD arrives (R248). -/
def State.admitQueued (s : State) (hi : Nat) : State :=
  match s.holds[hi]? with
  | none => s
  | some h =>
    let empty := fun (h : Hold) => { h with queued := [] }
    h.queued.foldl (fun s i =>
      match s.grids[h.grid]? with
      | none => s
      | some gr =>
        let tmo := (((gr.pool h.pool).members.find? fun m => m.wg == s.wgOf i).map PoolMember.tmo).getD 0
        s.enterHold i (s.wgOf i) h.grid h.pool gr.asid h.va h.nlines tmo) { s with holds := s.holds.modify hi empty }

/-- The open holds that have every awaited member end, one after the other, and what they kept waiting is served (R248, R250). -/
def State.settleHolds (s : State) : Nat → State
  | 0 => s
  | n + 1 =>
    match s.holds.findIdx? fun h => h.isOpen && !h.free && h.awaited.all fun g => h.included.any fun i => s.wgOf i == g with
    | none => s
    | some hi => ((s.endHold hi false).admitQueued hi).settleHolds n

/-- Enough for every hold that can end at one moment. -/
def State.holdFuel (s : State) : Nat := (s.holds.map fun h => 1 + h.queued.length).sum

/-- A workgroup withdrawn from one pool (R250, R405). -/
def State.withdraw (s : State) (wi gi pool : Nat) : State :=
  let s := s.modPool gi pool fun p => { p with members := p.members.filter fun m => m.wg != wi }
  let ofPool := fun (h : Hold) => h.grid == gi && h.pool == pool && !h.free
  -- queued and included MCLDs of open holds complete DISCARDED
  let gone := s.holds.flatMap fun h => if ofPool h && h.isOpen then (h.included ++ h.queued).filter fun i => s.wgOf i == wi else []
  let s := gone.foldl (fun s i => s.mcldDone i (mcldStatus 5 0 0)) s
  let s := s.modPool gi pool fun p => p.discard gone.length
  let isMem := fun g => ((s.grids[gi]?).map fun gr => gr.isMember pool g).getD false
  let leave := fun (h : Hold) =>
    if !ofPool h then h
    else if h.isOpen then
      let inc := h.included.filter fun i => s.wgOf i != wi
      { h with awaited := h.awaited.filter fun g => g != wi, included := inc, queued := h.queued.filter fun i => s.wgOf i != wi, free := inc.isEmpty }
    else { h with free := h.awaited.all fun g => !isMem g }
  let closed := (List.range s.holds.length).filter fun hi => match s.holds[hi]? with
    | some h => ofPool h && h.isOpen && h.included.all fun i => s.wgOf i == wi
    | none => false
  let s := { s with holds := s.holds.map leave }
  -- what was queued behind a hold closed without a read opens the next; holds whose remaining awaited members are all included end
  let s := closed.foldl State.admitQueued s
  let s := s.settleHolds s.holdFuel
  -- fills on their way to the workgroup are discarded
  let late := s.jobs.flatMap fun j => j.fills.filter fun f => s.wgOf f.op == wi && (match (s.ops[f.op]?).map Op.kind with
    | some (.mcld _ _ _ p) => p == pool
    | _ => false)
  let s := late.foldl (fun s f => s.mcldDone f.op (mcldStatus 5 f.awaited f.included)) s
  let s := s.modPool gi pool fun p => p.discard late.length
  { s with jobs := s.jobs.map fun j => { j with fills := j.fills.filter fun f => !late.contains f } }

/-- A workgroup withdrawn from every pool (R250). -/
def State.withdrawAll (s : State) (wi : Nat) : State :=
  match s.wgs[wi]? with
  | none => s
  | some g =>
    (List.range 16).foldl (fun s p => match s.grids[g.grid]? with
      | some gr => if gr.isMember p wi then s.withdraw wi g.grid p else s
      | none => s) s

/-! ### Ending a warp (R169, R191, R381) -/

/-- Whether a warp's workgroup has no running warp left. -/
def State.wgDone (s : State) (wi : Nat) : Bool := s.warps.all fun w => w.wg != wi || w.status != .running

/-- After the last workgroup of a grid on a cluster has ended, the stall-table entries of its ASID spill (R344). -/
def State.stallDue (s : State) (wi : Nat) (g : Workgroup) (asid : Nat) : State :=
  let others := (s.wgs.zipIdx).any fun p => p.2 != wi && p.1.grid == g.grid && coreCl p.1.core == coreCl g.core && p.1.status != .ended
    && p.1.status != .terminated
  if others then s
  else s.modCluster (coreCl g.core) fun c =>
    { c with stalls := c.stalls.filter fun e => e.asid != asid, spillQ := c.spillQ ++ c.stalls.filter fun e => e.asid == asid }

/-- What follows the end of a warp: its private lines go, the splices that wait for it are discarded (R407), and after the last
warp the workgroup leaves its pools and ends (R250, R381). -/
def State.endWarp (s : State) (i : Nat) (st : WarpStatus) : State :=
  match s.warps[i]? with
  | none => s
  | some w =>
    match s.wgs[w.wg]? with
    | none => s
    | some g =>
      match s.grids[g.grid]? with
      | none => s
      | some gr =>
        let s := s.dropPriv w g gr
        let tgt : Word := BitVec.ofNat 32 (w.num * 2 ^ 10 + g.die * 2 ^ 8 + g.cl * 2 ^ 4 + g.wg)
        let s := w.recvq.foldl (fun s q => s.logMem (coreDie g.core) (recordWords 6 0 gr.asid g.seq (whereWord g.core (w.index gr.lrec) w.slot)
          (q.tag.toNat * 2 ^ 20 + gr.lrec.gridNo) 3 tgt)) s
        let s := s.modWarp i fun w => { w with status := st, recvq := [], wait := .none, psnTrap := none }
        let unwait := fun (r : Ring) => { r with pwait := r.pwait.filter fun x => x.warp != i, cwait := r.cwait.filter fun x => x.warp != i }
        let s := s.modWg w.wg fun (g : Workgroup) =>
          { g with growQ := g.growQ.filter fun q => q.warp != i, rings := g.rings.map unwait, freed := g.freed + w.allot }
        if s.wgDone w.wg then
          ((s.withdrawAll w.wg).modWg w.wg fun g => if g.status = .terminated then g else { g with status := .ended }).stallDue w.wg g gr.asid
        else s

/-- A warp killed, with a record in the package error log (R381, R385, R386). -/
def State.kill (s : State) (i kind cause : Nat) (info info2 : Word) : State :=
  match s.warps[i]? with
  | none => s
  | some w =>
    match s.wgs[w.wg]? with
    | none => s
    | some g =>
      match s.grids[g.grid]? with
      | none => s
      | some gr =>
        let s := s.logErr (recordWords kind cause gr.asid g.seq (whereWord g.core (w.index gr.lrec) w.slot) w.pc.toNat info info2)
        let s := s.modGrid g.grid fun gr =>
          { gr with error := true, illegal := if kind = 1 && gr.illegal.isNone then some (w.pc.toNat, info) else gr.illegal }
        s.endWarp i .killed

/-! ### Results that are still to come -/

/-- Whether an operation writes registers, and has not yet. -/
def Op.awaitsValue (o : Op) : Bool :=
  o.aux.isEmpty && match o.kind with
    | .mem .load _ _ _ _ | .mem (.atom _) _ _ _ _ | .mem .cas _ _ _ _ => true
    | _ => false

/-- The registers an operation will still write: lane registers, scalar registers (R225, R199, R248, R253, R261). -/
def Op.pendingRegs (o : Op) : List Nat × List Nat :=
  if o.status = .complete && !o.awaitsValue then ([], [])
  else match o.kind with
    | .mem _ d size _ scalar =>
      if !o.awaitsValue then ([], [])
      else if scalar then ([], span d (if size = 8 then 2 else 1)) else (span d ((size + 3) / 4), [])
    | .nred z x y _ _ _ => ([], span x (if z = .addI64 then 2 else 1) ++ [y])
    | .time d => ([], span d 2)
    | .mcld _ y _ _ => ([], [y])
    | .cmd (.copy k a) => ([], if k = .c then [a.dreg + 2, a.dreg + 3] else [a.dreg + 3])
    | _ => ([], [])

/-- Whether an operation of a warp still writes one of some scalar registers. -/
def State.owes (s : State) (wi : Nat) (regs : List Nat) : Bool := s.ops.any fun o => o.warp == wi && regs.any o.pendingRegs.2.contains

/-- A warp waits: it stays at its instruction. -/
def State.waitFor (s : State) (i : Nat) (x : Wait) : State := s.modWarp i fun w => { w with wait := x }

/-! ### Taking a trap, and returning from one (R192, R196, R380) -/

/-- TAKING A TRAP with a cause, the PC that s62 reports and the resume address: a TRAP entry is pushed, s62 and s63 are written,
PC becomes handler entry 0; the entry waits while a result for s62 or s63 is outstanding. With traps masked, with entry 0 empty or with the
stack full the warp is killed (R380). -/
def State.takeTrap (s : State) (i cause : Nat) (src resume : PC) : State :=
  match s.warps[i]? with
  | none => s
  | some w =>
    match s.wgs[w.wg]? with
    | none => s
    | some g =>
      match s.grids[g.grid]? with
      | none => s
      | some gr =>
        let h := gr.lrec.handlers.getD 0 0
        if h = 0 then s.kill i 4 cause 0 w.emask
        else if w.masked then s.kill i 4 cause 1 w.emask
        else
          let e : StackEntry := { pc := resume, mask := w.emask, fmt := w.fmt.setWidth 32, kind := 4, cause := BitVec.ofNat 8 cause }
          match s.push w g gr e with
          | .full | .bad _ => s.kill i 4 cause 2 w.emask
          | .probe asid va => s.waitFor i (.probe asid va)
          | .room asid va => s.waitFor i (.room asid va)
          | .spill off lane => s.kill i 3 0 (BitVec.ofNat 32 off) (BitVec.ofNat 32 lane)
          | .ok s' w =>
            if s.owes i [62, 63] then s.waitFor i .score
            else
            let w := (w.setS 62 (BitVec.ofNat 32 src.toNat) false).setS 63 (BitVec.ofNat 32 cause) false
            s'.modWarp i fun _ => { w with pc := h, trapAt := some (w.sdepth - 1), wait := .none }

/-- A pop by an instruction that takes entries of the given kinds; an entry with an uncorrectable error is a STACK fault (R43, R387, R397). -/
def State.popKind (s : State) (i : Nat) (kinds : List Nat) : State :=
  match s.warps[i]? with
  | none => s
  | some w =>
    match s.wgs[w.wg]? with
    | none => s
    | some g =>
      match s.grids[g.grid]? with
      | none => s
      | some gr =>
        match w.stack with
        | [] => s.kill i 2 0 0 0
        | e :: _ =>
          if kinds.contains e.kind.toNat && !e.bad then
            match s.popTop w g gr with
            | .ok s w => s.modWarp i fun _ => { w.restore e with wait := .none }
            | .probe asid va => s.waitFor i (.probe asid va)
            | .spill off lane => s.kill i 3 0 (BitVec.ofNat 32 off) (BitVec.ofNat 32 lane)
            | .full | .room _ _ | .bad _ => s
          else s.kill i 2 0 (BitVec.ofNat 32 w.sdepth) (e.words.getD 3 0)

/-- RETURN FROM A TRAP (R196). -/
def State.returnTrap (s : State) (i : Nat) : State := s.popKind i [4]

/-! ### Legality in the warp that issues (R167), and the issue of an instruction word (R376) -/

/-- What a role may issue (R48). -/
def Role.allows (r : Role) (i : Instr) : Bool :=
  if i.isLane then r == .general || r == .vector
  else if i.isMatrix then r == .general || r == .matrix
  else if i.isCopy then r == .general || r == .copy
  else true

/-- Whether the word is legal in this warp (R167): registers within the allotment, tile and B slots and matrix use the workgroup has
(R259), the role, and ROLE's own conditions (R257). -/
def legalAt (i : Instr) (w : Warp) (gr : Grid) : Bool :=
  (laneRegs i).all (fun r => decide (r < 8 * w.allot))
    && (!i.namesTile || gr.lrec.acc != 0)
    && (!i.namesB || gr.lrec.isMatrix)
    && (!i.isMatrix || gr.lrec.isMatrix)
    && w.role.allows i
    && (match i with
        | .role _ n => w.handler.isNone && decide (n.val < gr.lrec.ndesc)
        | _ => true)

/-- The warp after an instruction that neither branches nor traps (R157). -/
def Warp.next (w : Warp) (i : Instr) : Warp := { w with pc := pcAdd w.pc i.size, wait := .none }

/-- An illegal word (R168): a no-operation of n bytes in mode 0 with EMASK = 0, else a kill. -/
def State.illegal (s : State) (i : Nat) (w : Warp) (gr : Grid) (word : Word) (n : Nat) : State :=
  if !gr.lrec.legal && w.emask == 0 then s.modWarp i fun w => { w with pc := pcAdd w.pc n, wait := .none }
  else s.kill i 1 0 word w.emask

/-- A step that always answers a next state. -/
abbrev Out := Host.Outcome State Fault Refusal

/-- The warp that issues, with its workgroup and grid. -/
structure Ctx where
  w  : Warp
  g  : Workgroup
  gr : Grid
  deriving DecidableEq, Repr

/-- The issuing warp of a state, if it runs. -/
def State.issuer (s : State) : Option Ctx :=
  match s.warps[s.cur]? with
  | none => none
  | some w =>
    match s.wgs[w.wg]? with
    | none => none
    | some g =>
      match s.grids[g.grid]? with
      | none => none
      | some gr => if w.status = .running then some { w := w, g := g, gr := gr } else none

/-- The issue of an instruction word by the issuing warp: legality first (R376), then the effect. Without an issuing warp
nothing happens. -/
def issue (i : Instr) (s : State) (k : Ctx → State) : Out :=
  match s.issuer with
  | none => .next s
  | some c =>
    if legalAt i c.w c.gr then .next (k c)
    else .next (s.illegal s.cur c.w c.gr (BitVec.ofNat 32 ((encode i).headD 0)) i.size)

/-- An instruction that only changes its warp and retires. -/
def retire (i : Instr) (s : State) (f : Ctx → Warp) : Out := issue i s fun c => s.modWarp s.cur fun _ => (f c).next i

end Sys2Proof.Machine
end

