-- ==== Sys2Proof/Machine/Flags.lean ====
section
/-! DEFINITION. The AFLAGS bits (R66) and which of them fire a TFENCE (R195). -/

namespace Sys2Proof.Machine

open Sys2Proof

def flagNV : Word := 0x01
def flagOF : Word := 0x02
def flagUF : Word := 0x04
def flagNX : Word := 0x08
def flagNFMT : Word := 0x10
def flagSAT : Word := 0x20
def flagECCZ : Word := 0x40

/-- The bits of AFLAGS that SWR writes: 22:16 and 6:0 (R78). -/
def aflagsMask : Word := 0x007F007F

/-- AFLAGS as SWR leaves it (R78). -/
def swrAflags (v : Word) : Word := v &&& aflagsMask

/-- t of R195: the flags that are set and enabled. -/
def firedFlags (aflags : Word) : Nat := (BitVec.ofNat 7 (bitsOf aflags 0 7) &&& BitVec.ofNat 7 (bitsOf aflags 16 7)).toNat

/-- A flag word from a condition. -/
def flagIf (b : Bool) (f : Word) : Word := if b then f else 0

end Sys2Proof.Machine
end

