-- ==== Sys2Proof/Machine/Operands.lean ====
section
/-! DEFINITION. The operand forms: one, two and three lane registers with a guard, predicates, scalar registers; a value per lane
with the flags it raises, the poison marks of R394, and the retirement of R157. -/

namespace Sys2Proof.Machine

open Sys2Proof

/-- A lane's result with the AFLAGS bits it raises. -/
abbrev Flagged := Word × Word

/-- A lane instruction that writes v(d) (R40): f gives lane l's value and flags, q its poison mark. -/
def Warp.laneResult (w : Warp) (d : Nat) (g : Guard) (f : Nat → Flagged) (q : Nat → Bool) : Warp :=
  let m := w.acting g
  (w.setLanes d m (fun l => (f l).1) q).raise ((lanesOf m).foldl (fun x l => x ||| (f l).2) 0)

/-- v(d) from v(a) (LR with b = 0). -/
def lane1 (i : Instr) (d a : Nat) (g : Guard) (f : Word → Flagged) (s : State) : Out :=
  retire i s fun c => c.w.laneResult d g (fun l => f (c.w.vreg a l)) (fun l => c.w.vpsn a l)

/-- v(d) from v(a) and v(b). -/
def lane2 (i : Instr) (d a b : Nat) (g : Guard) (f : Word → Word → Flagged) (s : State) : Out :=
  retire i s fun c => c.w.laneResult d g (fun l => f (c.w.vreg a l) (c.w.vreg b l)) (fun l => c.w.vpsn a l || c.w.vpsn b l)

/-- v(d) from v(a), v(b) and the old v(d). -/
def lane3 (i : Instr) (d a b : Nat) (g : Guard) (f : Word → Word → Word → Flagged) (s : State) : Out :=
  retire i s fun c => c.w.laneResult d g (fun l => f (c.w.vreg a l) (c.w.vreg b l) (c.w.vreg d l))
    (fun l => c.w.vpsn a l || c.w.vpsn b l || c.w.vpsn d l)

/-- p(d) from v(a) and v(b); no mark is carried into a predicate (R394). -/
def laneCmp (i : Instr) (d a b : Nat) (g : Guard) (f : Word → Word → Bool) (s : State) : Out :=
  retire i s fun c => c.w.setPred d (c.w.acting g) fun l => f (c.w.vreg a l) (c.w.vreg b l)

/-- p(d) from predicates (R207). -/
def lanePred (i : Instr) (d : Nat) (g : Guard) (f : Warp → LaneMask) (s : State) : Out :=
  retire i s fun c => c.w.setPred d (c.w.acting g) fun l => (f c.w).getLsbD l

/-- s(d) from the warp (R180), with its mark. -/
def scalarTo (i : Instr) (d : Nat) (f : Warp → Word) (q : Warp → Bool) (s : State) : Out :=
  retire i s fun c => c.w.setS d (f c.w) (q c.w)

/-- s(d) from s(a). -/
def scalar1 (i : Instr) (d a : Nat) (f : Word → Word) (s : State) : Out :=
  scalarTo i d (fun w => f (w.sreg a)) (fun w => w.spsn a) s

/-- s(d) from s(a) and s(b). -/
def scalar2 (i : Instr) (d a b : Nat) (f : Word → Word → Word) (s : State) : Out :=
  scalarTo i d (fun w => f (w.sreg a) (w.sreg b)) (fun w => w.spsn a || w.spsn b) s

end Sys2Proof.Machine
end

