-- ==== Sys2Proof/Machine/Control.lean ====
section
/-! DEFINITION. Control flow: branches, calls and divergence, ending a warp, traps, SNOP and YIELD (R43, R186 to R197). -/

namespace Sys2Proof.Machine

open Sys2Proof

/-- A branch target: PC + 4 × offset modulo 2^52, the offset signed (R162, R186). -/
def target (pc : PC) (off : BitVec 21) : PC := pc + (off.signExtend 52 <<< 2)

/-- A branch (R186): taken, PC is the target; untaken, PC + 4. -/
def branch (i : Instr) (off : BitVec 21) (taken : Warp → Bool) (s : State) : Out :=
  issue i s fun c => s.modWarp s.cur fun _ =>
    if taken c.w then { c.w with pc := target c.w.pc off, wait := .none } else c.w.next i

/-- p xor the inversion, as a mask (R186, R188). -/
def Warp.cond (w : Warp) (inv : Bool) (p : Nat) : LaneMask := if inv then ~~~(w.pred p) else w.pred p

def execBra (off : BitVec 21) (s : State) : Out := branch (.bra off) off (fun _ => true) s
def execBrcNz (c : Fin 16) (off : BitVec 21) (s : State) : Out := branch (.brcNz c off) off (fun w => w.sreg c != 0) s
def execBrcZ (c : Fin 16) (off : BitVec 21) (s : State) : Out := branch (.brcZ c off) off (fun w => w.sreg c == 0) s
def execBrany (inv : Bool) (p : Fin 8) (off : BitVec 21) (s : State) : Out :=
  branch (.brany inv p off) off (fun w => w.emask &&& w.cond inv p != 0) s
def execBrall (inv : Bool) (p : Fin 8) (off : BitVec 21) (s : State) : Out :=
  branch (.brall inv p off) off (fun w => w.emask &&& ~~~(w.cond inv p) == 0) s

/-- What a push's outcome does to the issuing warp (R387): beyond capacity and failing spills kill. -/
def State.afterPush (s : State) (i : Nat) (depth : Nat) (o : StackOut) (k : State → Warp → State) : State :=
  match o with
  | .ok s w => k s w
  | .probe asid va => s.waitFor i (.probe asid va)
  | .room asid va => s.waitFor i (.room asid va)
  | .full | .bad _ => s.kill i 2 0 (BitVec.ofNat 32 depth) 0
  | .spill off lane => s.kill i 3 0 (BitVec.ofNat 32 off) (BitVec.ofNat 32 lane)

/-- CALL (R187). -/
def execCall (off : BitVec 21) (s : State) : Out :=
  issue (.call off) s fun c =>
    let e : StackEntry := { pc := pcAdd c.w.pc 4, mask := c.w.emask, fmt := c.w.fmt.setWidth 32, kind := 3, cause := 0 }
    s.afterPush s.cur c.w.sdepth (s.push c.w c.g c.gr e) fun s w =>
      s.modWarp s.cur fun _ => { w with pc := target w.pc off, wait := .none }

/-- SPLIT (R43, R188): capacity for every entry is checked first, then the spills (R387). -/
def execSplit (inv : Bool) (p : Fin 8) (e : Fin 1024) (j : Fin 2048) (s : State) : Out :=
  issue (.split inv p e j) s fun c =>
    let w := c.w
    let depth := w.sdepth
    let epc := pcAdd w.pc (4 * e.val)
    let taken := w.emask &&& w.cond inv p
    let other := w.emask &&& ~~~(w.cond inv p)
    let both := taken != 0 && other != 0
    let fmt : Word := w.fmt.setWidth 32
    let recv : StackEntry := { pc := pcAdd epc (4 * j.val), mask := w.emask, fmt := fmt, kind := 2, cause := 0 }
    let path : StackEntry := { pc := epc, mask := other, fmt := fmt, kind := 1, cause := 0 }
    if c.gr.lrec.stackCap < depth + (if both then 2 else 1) then s.kill s.cur 2 0 (BitVec.ofNat 32 depth) 0
    else
      s.afterPush s.cur depth (s.push w c.g c.gr recv) fun s1 w1 =>
        if both then
          s.afterPush s.cur depth (s1.push w1 c.g c.gr path) fun s2 w2 =>
            s2.modWarp s.cur fun _ => { w2 with emask := taken, pc := pcAdd w.pc 4, wait := .none }
        else if taken != 0 then s1.modWarp s.cur fun _ => { w1 with pc := pcAdd w.pc 4, wait := .none }
        else s1.modWarp s.cur fun _ => { w1 with emask := other, pc := epc, wait := .none }

/-- RET (R187): takes an entry of kind CALL. -/
def execRet (s : State) : Out := issue .ret s fun _ => s.popKind s.cur [3]

/-- JOIN (R188): takes an entry of kind PATH or RECONV. -/
def execJoin (s : State) : Out := issue .join s fun _ => s.popKind s.cur [1, 2]

/-! ### EXIT (R191) -/

/-- The masks of the entries in hardware without the exiting lanes. -/
def Warp.exitLanes (w : Warp) (x : LaneMask) : Warp :=
  { w with stack := w.stack.map fun e => { e with mask := e.mask &&& ~~~x }, emask := 0 }

/-- The masks of the spilled entries without the exiting lanes. A poisoned mask word stays poisoned, so that the entry's later fill faults
(R387); the spec does not say what EXIT itself makes of it (DESIGN CHOICE, notes/assumptions/94.md). -/
def State.exitSpilled (s : State) (w : Warp) (g : Workgroup) (gr : Grid) (x : LaneMask) : State :=
  (List.range w.spilled).foldl (fun s j =>
    let va := privAddr w g gr.lrec (spillOff gr.lrec j) (spillLane j)
    let (v, p) := s.privRead g.core gr.asid va 4
    s.privWrite g.core gr.asid va 4 (BitVec.ofNat 32 v &&& ~~~x).toNat p) s

/-- The first spilled entry whose line has no way in the L1. -/
def State.spilledRoom (s : State) (w : Warp) (g : Workgroup) (gr : Grid) : Option Nat :=
  ((List.range w.spilled).map fun j => privAddr w g gr.lrec (spillOff gr.lrec j) (spillLane j)).find? fun va =>
    !s.privRoom g.core gr.asid va

/-- The first spilled entry whose line fails the check, or is not in the access check buffer. -/
def State.spilledCheck (s : State) (w : Warp) (g : Workgroup) (gr : Grid) : Option (Nat × Chk) :=
  ((List.range w.spilled).map fun j => (j, s.spillCheck w g gr j true)).find? fun p => match p.2 with
    | .ok _ => false
    | _ => true

/-- The loop of R191: entries with an empty mask leave without a check of their kind, but not one with an uncorrectable error (R397); n bounds
the entries. -/
def State.dropEmpty : Nat → State → Warp → Workgroup → Grid → StackOut
  | 0, s, w, _, _ => .ok s w
  | n + 1, s, w, g, gr =>
    match w.stack with
    | [] => .ok s w
    | e :: _ =>
      if e.mask = 0 then
        if e.bad then .bad (e.words.getD 3 0)
        else match s.popTop w g gr with
        | .ok s w => State.dropEmpty n s w g gr
        | o => o
      else .ok s w

/-- EXIT (R191). -/
def execExit (s : State) : Out :=
  issue .exit s fun c =>
    let i := s.cur
    match s.spilledCheck c.w c.g c.gr with
    | some (j, .fail _) => s.kill i 3 0 (BitVec.ofNat 32 (spillOff c.gr.lrec j)) (BitVec.ofNat 32 (spillLane j))
    | some (j, _) => s.waitFor i (.probe c.gr.asid (privAddr c.w c.g c.gr.lrec (spillOff c.gr.lrec j) (spillLane j)))
    | none => match s.spilledRoom c.w c.g c.gr with
     | some va => s.waitFor i (.room c.gr.asid va)
     | none =>
      let s1 := s.exitSpilled c.w c.g c.gr c.w.emask
      let w1 := c.w.exitLanes c.w.emask
      match State.dropEmpty w1.sdepth s1 w1 c.g c.gr with
      | .probe asid va => s.waitFor i (.probe asid va)
      | .spill off lane => s.kill i 3 0 (BitVec.ofNat 32 off) (BitVec.ofNat 32 lane)
      | .full | .room _ _ => s
      | .bad word => s.kill i 2 0 (BitVec.ofNat 32 c.w.sdepth) word
      | .ok s2 w2 =>
        match w2.stack with
        | [] => (s2.modWarp i fun _ => { w2 with wait := .none }).endWarp i .ended
        | e :: _ =>
          if e.kind.toNat = 0 ∨ 5 ≤ e.kind.toNat ∨ e.bad then
            s.kill i 2 0 (BitVec.ofNat 32 c.w.sdepth) (e.words.getD 3 0)
          else
            match s2.popTop w2 c.g c.gr with
            | .ok s3 w3 => s3.modWarp i fun _ => { w3.restore e with wait := .none }
            | .probe asid va => s.waitFor i (.probe asid va)
            | .spill off lane => s.kill i 3 0 (BitVec.ofNat 32 off) (BitVec.ofNat 32 lane)
            | .full | .room _ _ | .bad _ => s

/-! ### Traps (R194 to R196) -/

/-- TRAP: cause 0x40 + code, resume at PC + 4; masked or without a handler the warp is killed (R380). -/
def execTrap (code : Fin 64) (s : State) : Out :=
  issue (.trap code) s fun c => s.takeTrap s.cur (0x40 + code.val) c.w.pc (pcAdd c.w.pc 4)

/-- RTT (R196). -/
def execRtt (s : State) : Out := issue .rtt s fun _ => s.returnTrap s.cur

/-- Whether an operation will still set flags in its warp (R67, R195). -/
def Op.flagsLater (o : Op) : Bool :=
  o.status != .performed && o.status != .complete &&
    match o.kind with
    | .mem (.atom .fadd) _ _ _ _ | .mem (.red .fadd) _ _ _ _ => true
    | .cmd (.mma ..) | .cmd (.tcvt ..) | .cmd (.ascan ..) | .cmd (.copy ..) => true
    | .nred .addF32 _ _ _ _ _ => true
    | _ => false

/-- TFENCE (R195): waits for the operations that still set flags, then traps on flags set and enabled; with traps masked it
retires (R376). -/
def execTfence (s : State) : Out :=
  issue .tfence s fun c =>
    if s.ops.any fun o => o.warp == s.cur && o.flagsLater then s.waitFor s.cur .tfence
    else
      let t := firedFlags c.w.aflags
      if t ≠ 0 ∧ c.w.masked = false then s.takeTrap s.cur (0x80 + t) c.w.pc (pcAdd c.w.pc 4)
      else s.modWarp s.cur fun _ => c.w.next .tfence

/-! ### SNOP and YIELD (R59, R197) -/

def execSnop (s : State) : Out := retire .snop s fun c => c.w

/-- Whether a warp waits or is held by YIELD (R309). -/
def Warp.awaits (w : Warp) : Bool := w.wait != .none || !w.yielded.isEmpty

/-- The warps that a YIELD lets go first (R59): the same scheduler, ready, of the same or a higher class. -/
def State.yieldTo (s : State) (i : Nat) (w : Warp) (core : Nat) : List Nat :=
  (List.range s.warps.length).filter fun j =>
    match s.warps[j]? with
    | some x => j != i && x.status == .running && !x.awaits && x.slot % 2 == w.slot % 2 && decide (w.cls ≤ x.cls) &&
        (match s.wgs[x.wg]? with
        | some g => g.core == core && g.status == .running
        | none => false)
    | none => false

def execYield (s : State) : Out :=
  retire .yield s fun c => { c.w with yielded := s.yieldTo s.cur c.w c.g.core }

end Sys2Proof.Machine
end

