-- ==== Sys2Proof/Machine/Float.lean ====
section
/-! DEFINITION. Number formats and rounding (R85 to R89, R92 to R98): exact values, RoundNE, Sat with the rounding modes of CVT,
sums and group accumulation, and the correctly rounded functions of R212. -/

namespace Sys2Proof.Machine

open Sys2Proof

/-- An exact value: NaN, an infinity, or (−1)^neg × m × 2^e. A zero keeps its sign. -/
inductive Num where
  | nan
  | inf (neg : Bool)
  | fin (neg : Bool) (m : Nat) (e : Int)
  deriving DecidableEq, Repr, Inhabited

/-- A floating-point format (R85): exponent and fraction widths, bias; `e4m3` marks the variant of R86. -/
structure FloatFmt where
  ew   : Nat
  fw   : Nat
  bias : Int
  e4m3 : Bool := false
  deriving DecidableEq, Repr, Inhabited

def fp32 : FloatFmt := { ew := 8, fw := 23, bias := 127 }
def bf16 : FloatFmt := { ew := 8, fw := 7, bias := 127 }
def fp16 : FloatFmt := { ew := 5, fw := 10, bias := 15 }
def e4m3 : FloatFmt := { ew := 4, fw := 3, bias := 7, e4m3 := true }
def e5m2 : FloatFmt := { ew := 5, fw := 2, bias := 15 }

def FloatFmt.width (f : FloatFmt) : Nat := 1 + f.ew + f.fw

/-- The magnitude code of infinity in a format that has one; the code past the largest finite value in E4M3. -/
def FloatFmt.infCode (f : FloatFmt) : Nat := if f.e4m3 then 0x80 else (2 ^ f.ew - 1) * 2 ^ f.fw

def FloatFmt.maxCode (f : FloatFmt) : Nat := f.infCode - 1

/-- The canonical NaN (R87). -/
def FloatFmt.nanCode (f : FloatFmt) : Nat := if f.e4m3 then 0x80 else f.infCode + 2 ^ (f.fw - 1)

/-- The exponent of the least subnormal. -/
def FloatFmt.qmin (f : FloatFmt) : Int := 1 - f.bias - f.fw

/-- A code with its sign; E4M3 has no negative zero (R86). -/
def FloatFmt.signed (f : FloatFmt) (neg : Bool) (mag : Nat) : Nat :=
  if neg && !(f.e4m3 && mag == 0) then 2 ^ (f.ew + f.fw) + mag else mag

/-- The value of a code (R85, R86). -/
def FloatFmt.decode (f : FloatFmt) (code : Nat) : Num :=
  let neg := field code (f.ew + f.fw) 1 == 1
  let e := field code f.fw f.ew
  let m := field code 0 f.fw
  if f.e4m3 && code % 2 ^ f.width == 0x80 then .nan
  else if !f.e4m3 && e == 2 ^ f.ew - 1 then (if m = 0 then .inf neg else .nan)
  else if e = 0 then .fin neg m f.qmin
  else .fin neg (2 ^ f.fw + m) (f.qmin + e - 1)

/-- Whether a code is a subnormal. -/
def FloatFmt.isSub (f : FloatFmt) (code : Nat) : Bool := field code f.fw f.ew == 0 && field code 0 f.fw != 0

/-- m × 2^e divided by 2^q: quotient, and remainder and divisor of the part below one. -/
def splitAt (m : Nat) (e q : Int) : Nat × Nat × Nat :=
  if q ≤ e then (m * 2 ^ (e - q).toNat, 0, 1)
  else
    let d := 2 ^ (q - e).toNat
    (m / d, m % d, d)

/-- A magnitude rounded to an integer: n + r/d by mode, `neg` for the directed modes. -/
def roundInt (mode : Rm) (neg : Bool) (n r d : Nat) : Nat :=
  match mode with
  | .rn => if d < 2 * r ∨ (2 * r = d ∧ n % 2 = 1) then n + 1 else n
  | .rz => n
  | .rd => if neg ∧ r ≠ 0 then n + 1 else n
  | .ru => if !neg ∧ r ≠ 0 then n + 1 else n

/-- The exponent of the last place that a magnitude is rounded to in a format. -/
def FloatFmt.quantum (f : FloatFmt) (m : Nat) (e : Int) : Int := max f.qmin (e + Nat.log2 m - f.fw)

/-- A finite magnitude rounded without an upper limit: its magnitude code, whether it differs, whether the value lies below the
least normal. -/
def FloatFmt.roundMag (f : FloatFmt) (mode : Rm) (neg : Bool) (m : Nat) (e : Int) : Nat × Bool × Bool :=
  if m = 0 then (0, false, false)
  else
    let q := f.quantum m e
    let (n, r, d) := splitAt m e q
    let n' := roundInt mode neg n r d
    ((q - f.qmin).toNat * 2 ^ f.fw + n', r != 0, decide (e + Nat.log2 m < 1 - f.bias))

/-- NX and UF of a rounding (R92). -/
def roundFlags (inexact tiny : Bool) : Word := flagIf inexact flagNX ||| flagIf (inexact && tiny) flagUF

/-- RoundNE(x, F) (R92). A non-zero value that rounds to zero keeps the sign of the value, which no rule states (DESIGN CHOICE,
notes/assumptions/93.md). -/
def FloatFmt.roundNE (f : FloatFmt) (x : Num) : Flagged :=
  match x with
  | .nan => (BitVec.ofNat 32 f.nanCode, 0)
  | .inf neg =>
    if f.e4m3 then (BitVec.ofNat 32 (f.signed neg f.maxCode), flagSAT) else (BitVec.ofNat 32 (f.signed neg f.infCode), 0)
  | .fin neg m e =>
    let (c, ix, tiny) := f.roundMag .rn neg m e
    if c ≤ f.maxCode then (BitVec.ofNat 32 (f.signed neg c), roundFlags ix tiny)
    else if f.e4m3 then (BitVec.ofNat 32 (f.signed neg f.maxCode), flagSAT ||| flagNX)
    else (BitVec.ofNat 32 (f.signed neg f.infCode), flagOF ||| flagNX)

/-- Sat(x, F) into a floating-point format, with a rounding mode (R94, R214). -/
def FloatFmt.sat (f : FloatFmt) (mode : Rm) (x : Num) : Flagged :=
  match x with
  | .nan => (BitVec.ofNat 32 f.nanCode, 0)
  | .inf neg =>
    if f.e4m3 then (BitVec.ofNat 32 (f.signed neg f.maxCode), flagSAT) else (BitVec.ofNat 32 (f.signed neg f.infCode), 0)
  | .fin neg m e =>
    let (c, ix, tiny) := f.roundMag mode neg m e
    if f.maxCode < c then (BitVec.ofNat 32 (f.signed neg f.maxCode), flagSAT ||| flagNX)
    else (BitVec.ofNat 32 (f.signed neg c), roundFlags ix tiny)

/-- Sat(x, F) into an integer format of n bits (R94). -/
def satInt (signed : Bool) (n : Nat) (mode : Rm) (x : Num) : Flagged :=
  let lo : Int := if signed then -(2 ^ (n - 1)) else 0
  let hi : Int := if signed then 2 ^ (n - 1) - 1 else 2 ^ n - 1
  match x with
  | .nan => (0, flagNV)
  | .inf neg => (BitVec.ofNat 32 (wrap n (if neg then lo else hi)), flagSAT)
  | .fin neg m e =>
    let (q, r, d) := splitAt m e 0
    let k := roundInt mode neg q r d
    let v : Int := if neg then -(k : Int) else k
    let c := if v < lo then lo else if hi < v then hi else v
    (BitVec.ofNat 32 (wrap n c), flagIf (c != v) flagSAT ||| flagIf (r != 0) flagNX)

/-! ### Exact arithmetic -/

def Num.neg? : Num → Bool
  | .nan => false
  | .inf n => n
  | .fin n _ _ => n

/-- Negation of a value. -/
def Num.negate : Num → Num
  | .nan => .nan
  | .inf n => .inf (!n)
  | .fin n m e => .fin (!n) m e

/-- A signed integer times 2^e; zero is +0. -/
def Num.ofInt (v : Int) (e : Int) : Num := .fin (decide (v < 0)) v.natAbs e

/-- The product, exactly; `true` where it is 0 × ∞ (R87). -/
def Num.mul (a b : Num) : Num × Bool :=
  match a, b with
  | .nan, _ => (.nan, false)
  | _, .nan => (.nan, false)
  | .inf s, .inf t => (.inf (s != t), false)
  | .inf s, .fin t m _ => if m = 0 then (.nan, true) else (.inf (s != t), false)
  | .fin s m _, .inf t => if m = 0 then (.nan, true) else (.inf (s != t), false)
  | .fin s m e, .fin t n k => (.fin (s != t) (m * n) (e + k), false)

/-- A finite value's integer at exponent q, which lies at or below its own. -/
def finAt (neg : Bool) (m : Nat) (e q : Int) : Int :=
  let v : Int := (m * 2 ^ (e - q).toNat : Nat)
  if neg then -v else v

/-- The sum of finite values, exactly; the sign of a zero sum is `zero`. -/
def sumFin (xs : List (Bool × Nat × Int)) (zero : Bool) : Num :=
  let q := xs.foldl (fun q x => min q x.2.2) 0
  let v := xs.foldl (fun v x => v + finAt x.1 x.2.1 x.2.2 q) 0
  if v = 0 then .fin zero 0 q else Num.ofInt v q

/-- The sum of two values (R87, R95): opposite infinities are invalid; an exact zero sum is +0 unless both are zeros of one
sign. -/
def Num.add (a b : Num) : Num × Bool :=
  match a, b with
  | .nan, _ => (.nan, false)
  | _, .nan => (.nan, false)
  | .inf s, .inf t => if s = t then (.inf s, false) else (.nan, true)
  | .inf s, .fin _ _ _ => (.inf s, false)
  | .fin _ _ _, .inf t => (.inf t, false)
  | .fin s m e, .fin t n k => (sumFin [(s, m, e), (t, n, k)] (m == 0 && n == 0 && s && t), false)

/-- A value times 2^k. -/
def Num.scale (x : Num) (k : Int) : Num :=
  match x with
  | .fin s m e => .fin s m (e + k)
  | x => x

/-- FP32 RoundNE with NV when the operation was invalid (R87). -/
def roundOp (r : Num × Bool) : Flagged :=
  let (v, f) := fp32.roundNE r.1
  (v, f ||| flagIf r.2 flagNV)

def f32 (x : Word) : Num := fp32.decode x.toNat

def faddW (a b : Word) : Flagged := roundOp ((f32 a).add (f32 b))
def fsubW (a b : Word) : Flagged := roundOp ((f32 a).add (f32 b).negate)
def fmulW (a b : Word) : Flagged := roundOp ((f32 a).mul (f32 b))

/-- RoundNE(a × b + c) with one rounding (R95, R210). Where a × b is 0 × ∞ and c is a NaN, R87 names both cases: the model takes the NaN operand's,
without NV (DESIGN CHOICE, notes/assumptions/92.md). -/
def ffmaW (a b c : Word) : Flagged :=
  match (f32 a).mul (f32 b), f32 c with
  | (_, true), .nan => (BitVec.ofNat 32 fp32.nanCode, 0)
  | (p, true), _ => roundOp (p, true)
  | (p, false), z => roundOp (p.add z)

/-- Canonical FP32 NaN. -/
def nan32 : Word := 0x7FC00000

def isNan32 (x : Word) : Bool := f32 x == .nan

/-- FP32 codes as integers in value order, −0 below +0. -/
def order32 (x : Word) : Int := if x.msb then -((x.toNat : Int) - 2 ^ 31) - 1 else x.toNat

/-- FMIN and FMAX (R211). -/
def fminW (a b : Word) : Word :=
  if isNan32 a then (if isNan32 b then nan32 else b) else if isNan32 b then a else if order32 a ≤ order32 b then a else b
def fmaxW (a b : Word) : Word :=
  if isNan32 a then (if isNan32 b then nan32 else b) else if isNan32 b then a else if order32 a ≤ order32 b then b else a

/-- FP32 codes as integers in numeric order, −0 = +0. -/
def numeric32 (x : Word) : Int := if x.msb then -((x.toNat : Int) - 2 ^ 31) else x.toNat

/-- The conditions of FCMP (R206). -/
def fccHolds (c : Fcc) (a b : Word) : Bool :=
  let un := isNan32 a || isNan32 b
  match c with
  | .eq => !un && numeric32 a == numeric32 b
  | .ne => un || numeric32 a != numeric32 b
  | .lt => !un && decide (numeric32 a < numeric32 b)
  | .le => !un && decide (numeric32 a ≤ numeric32 b)
  | .gt => !un && decide (numeric32 b < numeric32 a)
  | .ge => !un && decide (numeric32 b ≤ numeric32 a)
  | .un => un
  | .ord => !un

/-! ### Group accumulation (R96 to R98) -/

/-- The exact value of acc plus the products, each scaled by 2^k, with the precedence of R96; `true`: NV. -/
def groupSum (acc : Num) (prods : List (Num × Num)) (k : Int) : Num × Bool :=
  let isNan := fun (x : Num) => x == .nan
  if isNan acc || prods.any fun p => isNan p.1 || isNan p.2 then (.nan, false)
  else
    let ps := prods.map fun p => p.1.mul p.2
    if ps.any fun p => p.2 then (.nan, true)
    else
      let xs := acc :: ps.map fun p => p.1.scale k
      let infs := xs.filterMap fun x => match x with
        | .inf s => some s
        | _ => none
      match infs with
      | s :: rest => if rest.all fun t => t == s then (.inf s, false) else (.nan, true)
      | [] => (sumFin (xs.filterMap fun x => match x with
          | .fin s m e => some (s, m, e)
          | _ => none) false, false)

/-- GroupAcc (R96): sa and sb are E8 codes. -/
def groupAcc (acc : Word) (prods : List (Num × Num)) (sa sb : Nat) : Flagged :=
  if sa = 0xFF ∨ sb = 0xFF then (nan32, 0) else roundOp (groupSum (f32 acc) prods ((sa : Int) + sb - 254))

/-- A group of INT8 products on an INT32 accumulator (R98). -/
def groupInt (acc : Word) (prods : List (Int × Int)) : Flagged :=
  let v := prods.foldl (fun v p => v + p.1 * p.2) acc.toInt
  (word v, flagIf (decide (v < -(2 ^ 31)) || decide (2 ^ 31 ≤ v)) flagOF)

/-! ### Element formats (R65, R201) -/

/-- The FloatFmt of a floating-point format code. -/
def floatOfCode (c : Nat) : Option FloatFmt :=
  match c with
  | 0 => some fp32 | 1 => some bf16 | 2 => some fp16 | 3 => some e4m3 | 4 => some e5m2
  | _ => none

/-- A BF16 subnormal read as a zero of its sign while the flush is in effect (R93). -/
def bf16Value (ftz : Bool) (code : Nat) : Num :=
  if ftz && bf16.isSub code then .fin (field code 15 1 == 1) 0 0 else bf16.decode code

/-! ### The functions of R212, rounded once

Each gives a magnitude m × 2^e and whether the exact value is not that number. A value that is not exact is represented by an odd
number at a far finer place, which rounds as the exact value does (notes/assumptions/7.md). -/

/-- m × 2^e, or a number just above it when `sticky`. -/
def stickyNum (neg : Bool) (m : Nat) (e : Int) (sticky : Bool) : Num :=
  if sticky then .fin neg (2 * m + 1) (e - 1) else .fin neg m e

/-- Integer square root, digit by digit: k digits of n, from the top. -/
def isqrt : Nat → Nat → Nat
  | 0, _ => 0
  | k + 1, n =>
    let r := 2 * isqrt k (n / 4)
    if (r + 1) * (r + 1) ≤ n then r + 1 else r

/-- 1 ÷ (m × 2^e), m ≠ 0. -/
def recipNum (neg : Bool) (m : Nat) (e : Int) : Num :=
  let k := 64 + Nat.log2 m
  stickyNum neg (2 ^ k / m) (-e - k) (2 ^ k % m != 0)

/-- √(m × 2^e). -/
def sqrtNum (m : Nat) (e : Int) : Num :=
  let m1 := if e % 2 = 0 then m else 2 * m
  let e1 := if e % 2 = 0 then e else e - 1
  let n := m1 * 2 ^ 64
  let r := isqrt 48 n
  stickyNum false r (e1 / 2 - 32) (r * r != n)

/-- 1 ÷ √(m × 2^e), m ≠ 0. -/
def rsqrtNum (m : Nat) (e : Int) : Num :=
  let m1 := if e % 2 = 0 then m else 2 * m
  let e1 := if e % 2 = 0 then e else e - 1
  let k : Nat := 64
  let r := isqrt 65 (2 ^ (2 * k) / m1)
  stickyNum false r (-(e1 / 2) - k) (r * r * m1 != 2 ^ (2 * k))

/-- Bits after the point of the fixed-point numbers below. -/
def fixBits : Nat := 256
def fixExp : Int := -256

/-- Σ u^(2i+1) ÷ (2i+1) for i < n, in fixed point: half of ln((1 + u) ÷ (1 − u)). -/
def atanhFix : Nat → Nat → Nat → Nat → Nat
  | 0, _, _, _ => 0
  | n + 1, u2, p, i => p / (2 * i + 1) + atanhFix n u2 (p * u2 / 2 ^ fixBits) (i + 1)

/-- ln(a ÷ b) in fixed point for b ≤ a ≤ 2 b. -/
def lnFix (a b : Nat) : Nat :=
  let u := (a - b) * 2 ^ fixBits / (a + b)
  2 * atanhFix 90 (u * u / 2 ^ fixBits) u 0

def ln2Fix : Nat := lnFix 2 1

/-- Σ y^i ÷ i! for n terms, in fixed point. -/
def expFix : Nat → Nat → Nat → Nat → Nat
  | 0, _, _, _ => 0
  | n + 1, y, t, i => t + expFix n y (t * y / 2 ^ fixBits / (i + 1)) (i + 1)

/-- 2^f in fixed point for a fraction f given in fixed point. -/
def exp2Fix (f : Nat) : Nat := expFix 64 (f * ln2Fix / 2 ^ fixBits) (2 ^ fixBits) 0

/-- 2^x for x = ±m × 2^e. -/
def exp2Num (neg : Bool) (m : Nat) (e : Int) : Num :=
  if m = 0 then .fin false 1 0
  else if e + Nat.log2 m < -26 then
    -- |x| below 2^−26: between 1 − 2^−26 and 1 + 2^−26
    if neg then .fin false (2 ^ 30 - 1) (-30) else .fin false (2 ^ 30 + 1) (-30)
  else if 10 ≤ e + Nat.log2 m then .fin false 1 (if neg then -1024 else 1024)
  else
    let x : Int := finAt neg m e fixExp
    let i : Int := x / (2 ^ fixBits : Nat)
    let f := (x % (2 ^ fixBits : Nat)).toNat
    if f = 0 then .fin false 1 i else stickyNum false (exp2Fix f) (i + fixExp) true

/-- log₂(m × 2^e), m ≠ 0. -/
def log2Num (m : Nat) (e : Int) : Num :=
  let k := Nat.log2 m
  let i := e + k
  if m = 2 ^ k then Num.ofInt i 0
  else
    let l := lnFix m (2 ^ k) * 2 ^ fixBits / ln2Fix
    let v : Int := i * (2 ^ fixBits : Nat) + l
    if v < 0 then .fin true (2 * v.natAbs - 1) (fixExp - 1) else .fin false (2 * v.natAbs + 1) (fixExp - 1)

/-- tanh of ±m × 2^e. -/
def tanhNum (neg : Bool) (m : Nat) (e : Int) : Num :=
  if m = 0 then .fin neg 0 0
  else if e + Nat.log2 m < -13 then .fin neg (m * 2 ^ 30 - 1) (e - 30)
  else if 5 ≤ e + Nat.log2 m then .fin neg (2 ^ 40 - 1) (-40)
  else
    let t : Nat := m * 2 ^ (e - fixExp + 1).toNat * 2 ^ fixBits / ln2Fix
    let n : Nat := exp2Fix (t % 2 ^ fixBits) * 2 ^ (t / 2 ^ fixBits)
    stickyNum neg ((n - 2 ^ fixBits) * 2 ^ fixBits / (n + 2 ^ fixBits)) fixExp true

/-- A positive or zero result to FP32, flags of one rounding. -/
def frcpW (a : Word) : Flagged :=
  match f32 a with
  | .nan => (nan32, 0)
  | .inf s => fp32.roundNE (.fin s 0 0)
  | .fin s m e => if m = 0 then fp32.roundNE (.inf s) else fp32.roundNE (recipNum s m e)

def frsqW (a : Word) : Flagged :=
  match f32 a with
  | .nan => (nan32, 0)
  | .inf s => if s then (nan32, flagNV) else (0, 0)
  | .fin s m e =>
    if m = 0 then fp32.roundNE (.inf s) else if s then (nan32, flagNV) else fp32.roundNE (rsqrtNum m e)

def fsqrtW (a : Word) : Flagged :=
  match f32 a with
  | .nan => (nan32, 0)
  | .inf s => if s then (nan32, flagNV) else fp32.roundNE (.inf false)
  | .fin s m e => if m = 0 then (a, 0) else if s then (nan32, flagNV) else fp32.roundNE (sqrtNum m e)

def fexp2W (a : Word) : Flagged :=
  match f32 a with
  | .nan => (nan32, 0)
  | .inf s => if s then (0, 0) else fp32.roundNE (.inf false)
  | .fin s m e => fp32.roundNE (exp2Num s m e)

def flog2W (a : Word) : Flagged :=
  match f32 a with
  | .nan => (nan32, 0)
  | .inf s => if s then (nan32, flagNV) else fp32.roundNE (.inf false)
  | .fin s m e => if m = 0 then fp32.roundNE (.inf true) else if s then (nan32, flagNV) else fp32.roundNE (log2Num m e)

def ftanhW (a : Word) : Flagged :=
  match f32 a with
  | .nan => (nan32, 0)
  | .inf s => fp32.roundNE (.fin s 1 0)
  | .fin s m e => fp32.roundNE (tanhNum s m e)

end Sys2Proof.Machine
end

