-- ==== Sys2Proof/Machine/N4o.lean ====
section
/-! DEFINITION. The N4O block (R90, R91): decoding, and the packing of R219. -/

namespace Sys2Proof.Machine

open Sys2Proof

/-- A value's numeric comparison with another: zeros equal, NaN equal to NaN. -/
def Num.same (a b : Num) : Bool :=
  match a, b with
  | .nan, .nan => true
  | .inf s, .inf t => s == t
  | .fin s m e, .fin t n k =>
    let q := min e k
    finAt s m e q == finAt t n k q
  | _, _ => false

/-- A nibble read as Signed4 (R91). -/
def nibble (n : Nat) : Num := Num.ofInt (sext 4 n) 0

/-- The decoding of R91 pair by pair: q pairs done out of 16, outliers counted so far. -/
def n4Pairs : Nat → Nat → Nat → (Nat → Nat) → List Num × Bool
  | 0, _, _, _ => ([], false)
  | k + 1, q, n, blk =>
    let lo := blk q % 16
    let hi := blk q / 16 % 16
    let zero : Num := .fin false 0 0
    if lo = 8 ∧ hi = 8 then
      let (xs, _) := n4Pairs k (q + 1) n blk
      (zero :: zero :: xs, true)
    else if lo = 8 ∨ hi = 8 then
      let nb := if lo = 8 then hi else lo
      let x := if n = 0 then e4m3.decode (blk 17 % 16 * 16 + nb) else if n = 1 then e4m3.decode (blk 17 / 16 % 16 * 16 + nb) else zero
      let (xs, f) := n4Pairs k (q + 1) (n + 1) blk
      (if lo = 8 then x :: zero :: xs else zero :: x :: xs, f || decide (2 ≤ n))
    else
      let (xs, f) := n4Pairs k (q + 1) n blk
      (nibble lo :: nibble hi :: xs, f)

/-- N4Decode (R91): the 32 values of a block given by its bytes, and whether NFMT is set. -/
def n4Decode (blk : Nat → Nat) : List Num × Bool :=
  let (xs, f) := n4Pairs 16 0 0 blk
  let e := blk 16 % 256
  (xs.map fun x => if e = 0xFF then .nan else x.scale ((e : Int) - 127), f)

/-! ### Packing (R219) -/

/-- What step 2 knows of an element: its scaled value and, for a finite value, its rounded integer. -/
structure N4Elem where
  q : Num
  n : Int
  cand : Bool
  deriving DecidableEq, Repr, Inhabited

/-- Steps 1 and 2 for one element. -/
def n4Elem (x : Num) (e : Nat) : N4Elem :=
  let q := x.scale (127 - (e : Int))
  match q with
  | .fin neg m k =>
    let (i, r, d) := splitAt m k 0
    let n := roundInt .rn neg i r d
    { q := q, n := if neg then -(n : Int) else n, cand := decide (7 < n) }
  | _ => { q := q, n := 0, cand := true }

/-- NaNs rank above infinities, those above finite values (R219 step 3). -/
def Num.rank : Num → Nat
  | .nan => 2
  | .inf _ => 1
  | .fin _ _ _ => 0

/-- Whether element a ranks above element b among candidates (step 3): NaNs, infinities, then by magnitude; ties to the lower
index. -/
def n4Above (a b : Nat × N4Elem) : Bool :=
  if a.2.q.rank != b.2.q.rank then decide (b.2.q.rank < a.2.q.rank)
  else match a.2.q, b.2.q with
    | .fin _ m e, .fin _ n k =>
      let q := min e k
      let x := finAt false m e q
      let y := finAt false n k q
      if x = y then decide (a.1 < b.1) else decide (y < x)
    | _, _ => decide (a.1 < b.1)

/-- The highest-ranked of a list. -/
def n4Best : List (Nat × N4Elem) → Option (Nat × N4Elem)
  | [] => none
  | x :: xs => match n4Best xs with
    | some y => if n4Above x y then some x else some y
    | none => some x

/-- N4PACK's block (R219) as 18 bytes, and its flags. -/
def n4Pack (xs : List Num) (e : Nat) : List Nat × Word :=
  let unequal := fun (bytes : List Nat) =>
    ((n4Decode fun i => bytes.getD i 0).1.zip xs).any fun p => !p.1.same p.2
  if e = 0xFF then
    let bytes := List.replicate 16 0 ++ [0xFF, 0]
    (bytes, flagNV ||| flagIf (unequal bytes) flagNX)
  else
    let es := (xs.map fun x => n4Elem x e).zipIdx.map fun p => (p.2, p.1)
    let cands := es.filter fun p => p.2.cand
    let partner := fun (i : Nat) => if i % 2 = 0 then i + 1 else i - 1
    let eligible := cands.filter fun p => match cands.find? fun r => r.1 == partner p.1 with
      | some r => n4Above p r
      | none => true
    let first := n4Best eligible
    let second := match first with
      | some p => n4Best (eligible.filter fun r => r.1 != p.1)
      | none => none
    let isOut := fun (i : Nat) => (first.map Prod.fst) == some i || (second.map Prod.fst) == some i
    let code := fun (x : N4Elem) =>
      let (c, f) := e4m3.sat .rn x.q
      (if c.toNat % 16 = 8 then c.toNat - 1 else c.toNat, f)
    let outs := es.filter fun p => isOut p.1
    let codes := outs.map fun p => code p.2
    let ext := ((codes[0]?).map fun c => c.1 / 16).getD 0 + 16 * ((codes[1]?).map fun c => c.1 / 16).getD 0
    let slot := fun (p : Nat × N4Elem) =>
      if isOut p.1 then ((8 : Nat), (0 : Word))
      else match outs.find? fun r => r.1 == partner p.1 with
        | some r => ((code r.2).1 % 16, 0)
        | none =>
          if p.2.cand then
            match p.2.q with
            | .nan => (0, flagNV)
            | q => (wrap 4 (if q.neg? then -7 else 7), flagSAT)
          else (wrap 4 p.2.n, 0)
    let nib := es.map slot
    let bytes := (List.range 16).map (fun i => (nib.getD (2 * i) (0, 0)).1 + 16 * (nib.getD (2 * i + 1) (0, 0)).1) ++ [e, ext]
    let flags := (nib.map Prod.snd ++ codes.map Prod.snd).foldl (fun x y => x ||| y) 0
    (bytes, flags ||| flagIf (unequal bytes) flagNX)

end Sys2Proof.Machine
end

