-- ==== Sys2Proof/Machine/LaneFloat.lean ====
section
/-! DEFINITION. Floating-point arithmetic, functions, conversion, dot products, scaling and N4O packing of the lane set (R206, R210
to R220). -/

namespace Sys2Proof.Machine

open Sys2Proof

/-! ### Arithmetic (R210, R211) and the compare of R206 -/

def execFadd (d a b : Fin 128) (g : Guard) (s : State) : Out := lane2 (.fadd d a b g) d a b g faddW s
def execFsub (d a b : Fin 128) (g : Guard) (s : State) : Out := lane2 (.fsub d a b g) d a b g fsubW s
def execFmul (d a b : Fin 128) (g : Guard) (s : State) : Out := lane2 (.fmul d a b g) d a b g fmulW s
def execFfma (d a b : Fin 128) (g : Guard) (s : State) : Out := lane3 (.ffma d a b g) d a b g ffmaW s
def execFmin (d a b : Fin 128) (g : Guard) (s : State) : Out := lane2 (.fmin d a b g) d a b g (fun x y => (fminW x y, 0)) s
def execFmax (d a b : Fin 128) (g : Guard) (s : State) : Out := lane2 (.fmax d a b g) d a b g (fun x y => (fmaxW x y, 0)) s
def execFcmp (cc : Fcc) (d : Fin 8) (a b : Fin 128) (g : Guard) (s : State) : Out :=
  laneCmp (.fcmp cc d a b g) d a b g (fccHolds cc) s

/-! ### Functions (R212) -/

def execFrcp (d a : Fin 128) (g : Guard) (s : State) : Out := lane1 (.frcp d a g) d a g frcpW s
def execFrsq (d a : Fin 128) (g : Guard) (s : State) : Out := lane1 (.frsq d a g) d a g frsqW s
def execFsqrt (d a : Fin 128) (g : Guard) (s : State) : Out := lane1 (.fsqrt d a g) d a g fsqrtW s
def execFexp2 (d a : Fin 128) (g : Guard) (s : State) : Out := lane1 (.fexp2 d a g) d a g fexp2W s
def execFlog2 (d a : Fin 128) (g : Guard) (s : State) : Out := lane1 (.flog2 d a g) d a g flog2W s
def execFtanh (d a : Fin 128) (g : Guard) (s : State) : Out := lane1 (.ftanh d a g) d a g ftanhW s

/-! ### Conversion (R213, R214) -/

/-- FMT fields (R64). -/
def fmtA (f : BitVec 16) : Nat := field f.toNat 0 4
def fmtB (f : BitVec 16) : Nat := field f.toNat 4 4
def fmtC (f : BitVec 16) : Nat := field f.toNat 8 4
def fmtAscl (f : BitVec 16) : Bool := f.getLsbD 12
def fmtBscl (f : BitVec 16) : Bool := f.getLsbD 13
def fmtFtz (f : BitVec 16) : Bool := f.getLsbD 15

/-- The exact value of element e of a word in a source format (R213, R214). -/
def cvtSource (sf : CvtFmt) (e : Nat) (ftz : Bool) (x : Word) : Num :=
  match sf with
  | .f32 => f32 x
  | .bf16 => bf16Value ftz (bitsOf x (16 * e) 16)
  | .f16 => fp16.decode (bitsOf x (16 * e) 16)
  | .e4m3 => e4m3.decode (bitsOf x (8 * e) 8)
  | .e5m2 => e5m2.decode (bitsOf x (8 * e) 8)
  | .s8 => Num.ofInt (sext 8 (bitsOf x (8 * e) 8)) 0
  | .s32 => Num.ofInt x.toInt 0
  | .u32 => Num.ofInt x.toNat 0

/-- Sat into a destination format code with a mode; BF16 results flush while FTZBF is set (R214). A code that is no conversion
destination writes 0 and sets NV. -/
def cvtDest (cfmt : Nat) (ftz : Bool) (mode : Rm) (x : Num) : Flagged :=
  match cfmt with
  | 5 => satInt true 8 mode x
  | 7 => satInt true 32 mode x
  | 8 => satInt false 32 mode x
  | 1 =>
    let (c, f) := bf16.sat mode x
    if ftz && bf16.isSub c.toNat then (c &&& 0x8000#32, f ||| flagUF ||| flagNX) else (c, f)
  | n => match floatOfCode n with
    | some fm => fm.sat mode x
    | none => (0, flagNV)

def execCvt (d a : Fin 128) (e : Fin 4) (f : CvtFmt) (g : Guard) (m : Rm) (s : State) : Out :=
  retire (.cvt d a e f g m) s fun c =>
    let fmt := c.w.fmt
    c.w.laneResult d g (fun l => cvtDest (fmtC fmt) (fmtFtz fmt) m (cvtSource f e.val (fmtFtz fmt) (c.w.vreg a l)))
      (fun l => c.w.vpsn a l)

/-! ### Dot products and scaling (R215, R217) -/

/-- The products of n elements of two words. -/
def dotPairs (n : Nat) (fa fb : Nat → Num) : List (Num × Num) := (List.range n).map fun i => (fa i, fb i)

/-- DOT2.bf16 in one lane. -/
def dot2 (ftz : Bool) (a b acc : Word) : Flagged :=
  groupAcc acc (dotPairs 2 (fun i => bf16Value ftz (bitsOf a (16 * i) 16)) (fun i => bf16Value ftz (bitsOf b (16 * i) 16))) 0x7F 0x7F

/-- DOT4.fp8 in one lane: INT8 when both codes are 0x5, a pair of FP8 codes, else NaN with NV. -/
def dot4 (fmt : BitVec 16) (a b acc : Word) : Flagged :=
  let el := fun (x : Word) (i : Nat) => bitsOf x (8 * i) 8
  let f8 := fun (n : Nat) => if n = 3 then some e4m3 else if n = 4 then some e5m2 else none
  if fmtA fmt = 5 ∧ fmtB fmt = 5 then
    groupInt acc ((List.range 4).map fun i => (sext 8 (el a i), sext 8 (el b i)))
  else match f8 (fmtA fmt), f8 (fmtB fmt) with
    | some fa, some fb => groupAcc acc (dotPairs 4 (fun i => fa.decode (el a i)) (fun i => fb.decode (el b i))) 0x7F 0x7F
    | _, _ => (nan32, flagNV)

/-- DOT8.n4o in one lane: a marker reads as 0 and sets NFMT. -/
def dot8 (a b acc : Word) : Flagged :=
  let nib := fun (x : Word) (i : Nat) => bitsOf x (4 * i) 4
  let val := fun (x : Word) (i : Nat) => if nib x i = 8 then Num.fin false 0 0 else nibble (nib x i)
  let (v, f) := groupAcc acc (dotPairs 8 (val a) (val b)) 0x7F 0x7F
  (v, f ||| flagIf ((List.range 8).any fun i => nib a i == 8 || nib b i == 8) flagNFMT)

def execDot2Bf16 (d a b : Fin 128) (g : Guard) (s : State) : Out :=
  retire (.dot2Bf16 d a b g) s fun c =>
    c.w.laneResult d g (fun l => dot2 (fmtFtz c.w.fmt) (c.w.vreg a l) (c.w.vreg b l) (c.w.vreg d l))
      (fun l => c.w.vpsn a l || c.w.vpsn b l || c.w.vpsn d l)
def execDot4Fp8 (d a b : Fin 128) (g : Guard) (s : State) : Out :=
  retire (.dot4Fp8 d a b g) s fun c =>
    c.w.laneResult d g (fun l => dot4 c.w.fmt (c.w.vreg a l) (c.w.vreg b l) (c.w.vreg d l))
      (fun l => c.w.vpsn a l || c.w.vpsn b l || c.w.vpsn d l)
def execDot8N4o (d a b : Fin 128) (g : Guard) (s : State) : Out := lane3 (.dot8N4o d a b g) d a b g dot8 s

/-- SCLX in one lane (R217). -/
def sclx (a b : Word) : Flagged :=
  let sa := bitsOf b 0 8
  let sb := bitsOf b 8 8
  if sa = 0xFF ∨ sb = 0xFF then (nan32, 0) else fp32.roundNE ((f32 a).scale ((sa : Int) + sb - 254))

def execSclx (d a b : Fin 128) (g : Guard) (s : State) : Out := lane2 (.sclx d a b g) d a b g sclx s

/-! ### N4O (R218 to R220) -/

/-- The word of lane l of a block image (R218). -/
def n4Word (bytes : List Nat) (l : Nat) : Word :=
  let b := fun i => bytes.getD i 0
  if l < 4 then BitVec.ofNat 32 (b (4 * l) + 2 ^ 8 * b (4 * l + 1) + 2 ^ 16 * b (4 * l + 2) + 2 ^ 24 * b (4 * l + 3))
  else if l = 4 then BitVec.ofNat 32 (b 16 + 2 ^ 8 * b 17) else 0

def execN4pack (d a b : Fin 128) (g : Guard) (s : State) : Out :=
  retire (.n4pack d a b g) s fun c =>
    let m := c.w.acting g
    let xs := lanes.map fun l => if m.getLsbD l then f32 (c.w.vreg a l) else Num.fin false 0 0
    let (bytes, flags) := n4Pack xs (bitsOf (c.w.vreg b 0) 0 8)
    let poisoned := c.w.vpsn b 0 || lanes.any fun l => m.getLsbD l && c.w.vpsn a l
    c.w.laneResult d g (fun l => (n4Word bytes l, flags)) (fun _ => poisoned)

def execN4unp (d a : Fin 128) (g : Guard) (s : State) : Out :=
  retire (.n4unp d a g) s fun c =>
    let (xs, nfmt) := n4Decode fun i => if i < 16 then bitsOf (c.w.vreg a (i / 4)) (8 * (i % 4)) 8
      else bitsOf (c.w.vreg a 4) (8 * (i - 16)) 8
    let poisoned := (List.range 5).any fun l => c.w.vpsn a l
    c.w.laneResult d g (fun l =>
      let (v, f) := fp32.roundNE (xs.getD l .nan)
      (v, f ||| flagIf nfmt flagNFMT)) (fun _ => poisoned)

end Sys2Proof.Machine
end

