-- ==== Sys2Proof/Machine/Route.lean ====
section
/-! DEFINITION. Routes to other packages (R324, R421), messages that leave the package, and the link and platform log (R414). -/

namespace Sys2Proof.Machine

open Sys2Proof

/-- LGSTAT.STATE of a fibre group (R318). -/
def State.groupState (s : State) (g : Nat) : Nat := bitsOf (s.reg (lgStat g)) 30 2

/-- The route-table byte for a chip (R324). -/
def State.routeByte (s : State) (chip : Nat) : Nat :=
  if chip / 256 = s.chip / 256 then bitsOf (s.reg (0x10000 + 4 * (chip % 256 / 4))) (8 * (chip % 4)) 8
  else bitsOf (s.reg (0x11000 + 4 * (chip / 256 % 4096 / 4))) (8 * (chip / 256 % 4)) 8

/-- Where a message to a chip goes. -/
inductive Route where
  | home                             -- this package
  | group (g : Nat)                  -- a group in service
  | waits (g : Nat)                  -- its group is in training
  | unreachable
  deriving DecidableEq, Repr

/-- The route to a chip (R324, R421). -/
def State.route (s : State) (chip : Nat) : Route :=
  if chip = s.chip then .home
  else
    let b := s.routeByte chip
    if b / 128 = 0 then .unreachable
    else
      let g := b % 16
      let st := s.groupState g
      if st = 2 then .group g else if st = 1 then .waits g else .unreachable

/-- The number that names an access in messages to other packages. -/
def accTag (i j : Nat) : Nat := i * 2 ^ 20 + j

/-- Flits of a message on a group (R319, R327, R332); where the spec gives no encoding a free number. -/
def msgFlits (n : Nat) (m : FabMsg) : Nat :=
  match m with
  | .active .. | .time .. => 1
  | _ => (Config.nfm1 n).toNat + 1

/-- A message put on a group with its SCHIP and its number of flits (R319, R323). -/
def State.sendAs (s : State) (g chip src flits : Nat) (m : FabMsg) : State :=
  { s with outbox := { group := g, chip := chip, src := src, body := m, left := flits } :: s.outbox }

/-- A message of this package sent on a group. -/
def State.send (s : State) (g chip : Nat) (m : FabMsg) : State := s.sendAs g chip s.chip (msgFlits s.outbox.length m) m

/-- A record in the link and platform log (R415). -/
def State.logLink (s : State) (kind sub link : Nat) (info info2 : Word) : State :=
  s.logTo 0x3010 0x3014 0x3018 0x5000
    [BitVec.ofNat 32 (kind * 2 ^ 24 + sub % 256 * 2 ^ 16 + link % 256 * 2 ^ 8), BitVec.ofNat 32 s.tb, BitVec.ofNat 32 (s.tb / 2 ^ 32),
      info, info2, 0, 0, 0]

/-! ### The access check of the units without a buffer -/

/-- The access check made by a unit without a buffer (copy engines, host bridge, distributor, trace): `miss` while the canonical page waits for
a frame, or the way to its package or its home is in training; a page of an unreachable package or die counts as not mapped (R401, R416,
R421). d is the unit's die, 4 the Rileveken die. -/
def State.walkCheck (s : State) (asid va : Nat) (write atomics : Bool) (d : Nat := 4) : Chk :=
  match permCheck (s.probeWord asid va) write atomics with
  | .ok w0 => match s.place asid va with
    | .alloc _ _ => .miss
    | .unmapped => .fail 0x10
    | .foreign chip _ _ => match if (s.die (homeDie va)).isolated then .unreachable else s.route chip with
      | .unreachable => .fail 0x10
      | .waits _ => .miss
      | _ => if s.linkHeld d (homeDie va) then .miss else .ok w0
    | .here _ _ v =>
      if s.cutOff d (homeDie va) || s.cutOff (homeDie va) (homeDie v) then .fail 0x10
      else if s.linkHeld d (homeDie va) || s.linkHeld (homeDie va) (homeDie v) then .miss
      else .ok w0
    | .absent => .ok w0
  | c => c

/-- The pages that a span touches, each by its first byte in the span. -/
def spanPages (va n : Nat) : List Nat :=
  (List.range ((va + n - 1) / 2 ^ 16 - va / 2 ^ 16 + 1)).map fun i => if i = 0 then va else (va / 2 ^ 16 + i) * 2 ^ 16

/-- The walk check of every byte of a span, by the pages it touches: the first failing address with its cause. -/
def State.spanCheck (s : State) (asid va n : Nat) (write atomics : Bool) (d : Nat := 4) : Option (Nat × Chk) :=
  ((spanPages va n).map fun a => (a, s.walkCheck asid a write atomics d)).find? fun p => match p.2 with
    | .ok _ => false
    | _ => true

/-! ### Accesses of the device to other packages

A queue entry, a launch record, a gang map, a buffer of the device may lie on an alias page of another package. Its bytes are read and written
by requests of up to 16 bytes whose answers the device awaits (R117, R294, R321, R326, R336). -/

/-- The first number of the tags of such requests. -/
def hostOp : Nat := 2 ^ 60

/-- The first number of the tags of splices to other packages (R235). -/
def spliceOp : Nat := 2 ^ 61

/-- A span cut at multiples of 16: address, length. -/
def spanPieces (va n : Nat) : List (Nat × Nat) :=
  (List.range ((va % 16 + n + 15) / 16)).map fun i =>
    let lo := if i = 0 then va else (va / 16 + i) * 16
    (lo, min (va + n) ((lo / 16 + 1) * 16) - lo)

/-- Whether some byte of a span lies in another package. -/
def State.spanAway (s : State) (asid va n : Nat) : Bool :=
  (spanPages va n).any fun a => match s.place asid a with
    | .foreign _ _ _ => true
    | _ => false

/-- The request in flight of a use, an ASID and an address. -/
def State.devFind (s : State) (use : DevUse) (asid va : Nat) : Option DevReq := s.devReqs.find? fun r => r.use == use && r.asid == asid && r.addr == va

/-- It is nobody's any more. -/
def State.devClose (s : State) (use : DevUse) (asid va : Nat) : State :=
  { s with devReqs := s.devReqs.map fun r => if r.use == use && r.asid == asid && r.addr == va then { r with use := .spent } else r }

/-- Whether every piece has been answered; whether one failed; the bytes; whether a word of them is poisoned. -/
def DevReq.done (r : DevReq) : Bool := r.pieces.all DevPiece.back
def DevReq.failed (r : DevReq) : Bool := r.pieces.any fun p => p.late != 0
def DevReq.bytes (r : DevReq) : List Byte := r.pieces.flatMap fun p => (List.range p.size).map fun b => BitVec.ofNat 8 (p.data.toNat / 256 ^ b)
def DevReq.poisoned (r : DevReq) : Bool := r.pieces.any fun p => p.psn != 0

/-- The bytes that a request covers. -/
def DevReq.size (r : DevReq) : Nat := (r.pieces.map DevPiece.size).sum

/-- The mark of the byte at an address of a request: that of its aligned word in its piece. -/
def DevReq.byteBad (r : DevReq) (a : Nat) : Bool :=
  ((spanPieces r.addr r.size).zip r.pieces).any fun p =>
    decide (p.1.1 ≤ a) && decide (a < p.1.1 + p.1.2) && p.2.psn.getLsbD ((p.1.1 % 4 + (a - p.1.1)) / 4)

/-- A piece of a span begun: at home at once, in another package by a request. None: its route is not in service. -/
def State.devPiece (s : State) (asid lo n tag : Nat) (data : Option (List Byte)) (psn : Nat) : Option (State × DevPiece) :=
  let v := (data.getD []).foldr (fun b n => b.toNat + 256 * n) 0
  match s.place asid lo with
  | .foreign c x va => match s.route c with
    | .group g =>
      let m : FabMsg := if data.isSome then .write tag x va n (BitVec.ofNat 16 (2 ^ n - 1)) (BitVec.ofNat 128 v) (BitVec.ofNat 4 psn) else .read tag x va n
      some (s.send g c m, { chip := c, size := n, sent := s.now })
    | _ => none
  | _ =>
    if data.isSome then some (s.homeWrite asid lo n (2 ^ n - 1) v psn, { chip := s.chip, size := n, sent := s.now, back := true })
    else some (s, { chip := s.chip, size := n, sent := s.now, back := true, data := BitVec.ofNat 128 (s.homeRead asid lo n)
                    psn := BitVec.ofNat 4 (s.homePsn asid lo n) })

/-- The marks of the words of a piece at lo, of n bytes, where `bad` gives a byte's. -/
def pieceMarks (bad : Nat → Bool) (lo n : Nat) : Nat :=
  (List.range ((lo % 4 + n + 3) / 4)).foldl (fun m j => if bad (lo / 4 * 4 + 4 * j) then m + 2 ^ j else m) 0

/-- A span is asked for, or written, its words marked where `bad` says so: its pieces go out together, or none does. -/
def State.devAsk (s : State) (use : DevUse) (asid va n : Nat) (data : Option (List Byte)) (bad : Nat → Bool := fun _ => false) : State :=
  let id := s.devReqs.length
  let go := fun (acc : Option (State × List DevPiece)) (p : (Nat × Nat) × Nat) => match acc with
    | none => none
    | some (t, ps) => (t.devPiece asid p.1.1 p.1.2 (accTag (hostOp + id) p.2) (data.map fun d => (d.drop (p.1.1 - va)).take p.1.2)
        (pieceMarks bad p.1.1 p.1.2)).map
        fun q => (q.1, ps ++ [q.2])
  match (spanPieces va n).zipIdx.foldl go (some (s, [])) with
  | some (t, ps) => { t with devReqs := t.devReqs ++ [{ use := use, addr := va, write := data.isSome, asid := asid, pieces := ps }] }
  | none => s

/-- What a read of the device at sys scope comes to. -/
inductive DevRead where
  | got (bytes : List Byte) (poisoned : Bool)
  | wait                             -- a page waits for a frame, a route is in training, answers are awaited
  | ask                              -- requests to other packages are to go out
  | fail
  deriving DecidableEq, Repr

/-- The n low bytes of a number, the least significant first. -/
def natBytes : Nat → Nat → List Byte
  | 0, _ => []
  | n + 1, x => BitVec.ofNat 8 x :: natBytes n (x / 256)

/-- A read of the device at sys scope (R294, R295, R326, R391), by a unit on die d. -/
def State.devRead (s : State) (asid va n : Nat) (d : Nat := 4) : DevRead :=
  if 2 ^ 52 < va + n then .fail
  else match s.devFind (.read n) asid va with
  | some r => if !r.done then .wait else if r.failed then .fail else .got r.bytes r.poisoned
  | none => match s.spanCheck asid va n false false d with
    | some (_, .miss) => .wait
    | some _ => .fail
    | none =>
      if s.spanAway asid va n then .ask
      else
        let ps := spanPieces va n
        .got (ps.flatMap fun p => natBytes p.2 (s.homeRead asid p.1 p.2))
          (ps.any fun p => s.homePsn asid p.1 p.2 != 0)

/-- The read's effect on the state: requests go out, a page without a frame is wanted, an answer that has been taken is closed. -/
def State.devReadOn (s : State) (asid va n : Nat) (d : Nat := 4) : State :=
  match s.devRead asid va n d with
  | .ask => s.devAsk (.read n) asid va n none
  | .wait => match s.spanCheck asid va n false false d with
    | some (a, .miss) => s.wantFrame asid a
    | _ => s
  | _ => s.devClose (.read n) asid va

/-- n bytes as a little-endian number. -/
def bytesNat (bs : List Byte) : Nat := bs.foldr (fun b n => b.toNat + 256 * n) 0

/-! ### Issue order of messages (R321) -/

/-- Whether an operation's consume snapshot was empty at issue. -/
def State.emptySnap (s : State) (i : Nat) : Bool := ((s.ops[i]?).map fun o => o.snap.isEmpty).getD true

/-- Whether a message of a core without a snapshot, issued before place `at_` of its core's issue order, has not been sent: an AMSEND, KSEND,
NRED contribution or LAUNCH entry (R321). Places count operations: operation i stands at 2 i + 1, a KSEND after n operations at 2 n. -/
def State.unsentBefore (s : State) (k at_ : Nat) : Bool :=
  (s.msgs.any fun y => y.stage == .held && y.core == k && y.warp.isSome && (y.op.map s.emptySnap).getD true && decide (y.at_ < at_))
    || (List.range (at_ / 2)).any fun i => match s.ops[i]? with
      | some o => o.core == k && o.status == .issued && o.snap.isEmpty && (match o.kind with
        | .nred .. | .launch _ => true
        | _ => false)
      | none => false

end Sys2Proof.Machine
end

