-- ==== Sys2Proof/Machine/LaneMem.lean ====
section
/-! DEFINITION. The issue of lane and scalar memory instructions (R107, R183, R221 to R227): address formation, the checks of R378,
the accesses of the operation. What the accesses do afterwards is in Machine/MemEvents.lean. -/

namespace Sys2Proof.Machine

open Sys2Proof

/-- e of R222: the sign-extended literal, or 0. -/
def litOff (off : Option Word) : Int := match off with
  | some w => w.toInt
  | none => 0

/-- The 64-bit address sum of a lane (R107). -/
def Warp.laneSum (w : Warp) (a l : Nat) (e : Int) : Nat :=
  wrap 64 (((w.vreg a l).toNat + 2 ^ 32 * (w.vreg (a + 1) l).toNat : Nat) + e)

/-- The 64-bit address sum of the scalar unit (R107). -/
def Warp.scalarSum (w : Warp) (a : Nat) (e : Int) : Nat := wrap 64 ((w.spair a : Nat) + e)

/-- The 32-bit offset of a scratchpad or private access (R107). -/
def Warp.laneOffset (w : Warp) (a l : Nat) (e : Int) : Nat := wrap 32 (((w.vreg a l).toNat : Nat) + e)

/-- What a memory instruction does in each lane. -/
structure MemForm where
  act    : MemAct
  d      : Nat
  size   : Nat                       -- bytes of one access
  signed : Bool := false
  space  : Space
  sc     : Scope
  deriving DecidableEq, Repr

/-- Whether it needs WR = 1, and AT = 1 (R116). -/
def MemForm.writes (f : MemForm) : Bool := f.act != .load
def MemForm.atomic (f : MemForm) : Bool := match f.act with
  | .load | .store => false
  | _ => true

/-- The registers' width of the data it sends: compare and new value for ATOMCAS (R227). -/
def MemForm.words (f : MemForm) : Nat := match f.act with
  | .cas => f.size / 2
  | _ => (f.size + 3) / 4

/-- Range, alignment, mapping and permissions of a global address, in the order of R378. -/
def State.checkGlobal (s : State) (k asid sum : Nat) (f : MemForm) : Nat × Chk :=
  if 2 ^ 52 ≤ sum then (0, .fail 0x14)
  else if sum % f.size ≠ 0 then (0, .fail 0x13)
  else (sum, s.acbCheck k asid sum f.writes f.atomic)

/-- The checks of a scratchpad offset (R222). -/
def checkScratch (r : Record) (x : Nat) (f : MemForm) : Nat × Chk :=
  if r.scr * 65536 < x + f.size then (0, .fail 0x14) else if x % f.size ≠ 0 then (0, .fail 0x13) else (0, .ok 0)

/-- The words of a private access: their addresses and sizes (R109). -/
def privParts (w : Warp) (g : Workgroup) (r : Record) (x l size : Nat) : List (Nat × Nat) :=
  if size ≤ 4 then [(privAddr w g r x l, size)] else (List.range (size / 4)).map fun i => (privAddr w g r (x + 4 * i) l, 4)

/-- The first of some checks that does not pass. -/
def firstBad (cs : List (Nat × Chk)) : Option (Nat × Chk) := cs.find? fun p => match p.2 with
  | .ok _ => false
  | _ => true

/-- The checks of a private offset (R109, R222). -/
def State.checkPriv (s : State) (c : Ctx) (x l : Nat) (f : MemForm) : Nat × Chk :=
  if c.gr.lrec.privSize < x + f.size then (0, .fail 0x14)
  else if x % min f.size 4 ≠ 0 then (0, .fail 0x13)
  else (firstBad ((privParts c.w c.g c.gr.lrec x l f.size).map fun p =>
    (p.1, if 2 ^ 52 ≤ p.1 then .fail 0x14 else s.acbCheck c.g.core c.gr.asid p.1 f.writes f.atomic))).getD (0, .ok 0)

/-- The address of a lane in the form's space. -/
def Warp.laneAddr (w : Warp) (f : MemForm) (a l : Nat) (e : Int) : Nat :=
  if f.space = .global then w.laneSum a l e else w.laneOffset a l e

/-- A lane's checks (R378). -/
def State.checkLane (s : State) (c : Ctx) (f : MemForm) (a l : Nat) (e : Int) : Nat × Chk :=
  match f.space with
  | .global => s.checkGlobal c.g.core c.gr.asid (c.w.laneSum a l e) f
  | .scratch => checkScratch c.gr.lrec (c.w.laneOffset a l e) f
  | .priv => s.checkPriv c (c.w.laneOffset a l e) l f

/-- The data that lane l sends: v(d) holds bytes 3:0, v(d + 1) bytes 7:4, and so on (R221). -/
def Warp.laneData (w : Warp) (d n l : Nat) : Nat :=
  (List.range n).foldr (fun i x => (w.vreg (d + i) l).toNat + 2 ^ 32 * x) 0

/-- The marks of that data, bit i for v(d + i). -/
def Warp.laneMarks (w : Warp) (d n l : Nat) : Nat := (List.range n).foldr (fun i x => (w.vpsn (d + i) l).toNat + 2 * x) 0

/-- The byte that an address names, with aliases resolved: chip, ASID, address (R117, R145). -/
def State.canon (s : State) (asid va : Nat) : Nat × Nat × Nat :=
  match s.place asid va with
  | .here _ a v => (s.chip, a, v)
  | .alloc a v => (s.chip, a, v)
  | .foreign c a v => (c, a, v)
  | .unmapped | .absent => (s.chip, asid, va)

/-- Whether the page of an address is an alias page (R117). -/
def State.onAlias (s : State) (asid va : Nat) : Bool :=
  match s.walk asid va with
  | some e => e.v && e.isAlias
  | none => false

/-- The byte enables of a lane's store: a byte that a higher acting lane names as well is that lane's (R111, R146). -/
def laneEnables (size : Nat) (mine : Nat × Nat × Nat) (higher : List (Nat × Nat × Nat)) : BitVec 16 :=
  BitVec.ofNat 16 ((List.range size).foldr (fun i x =>
    (!(higher.any fun h => h.1 == mine.1 && h.2.1 == mine.2.1 && decide (h.2.2 ≤ mine.2.2 + i) && decide (mine.2.2 + i < h.2.2 + size))).toNat
      + 2 * x) 0)

/-- The accesses of lane l: one, or one for each word of a private access (R224). -/
def State.laneAccesses (s : State) (c : Ctx) (f : MemForm) (a : Nat) (e : Int) (acting : List Nat) (l : Nat) : List Access :=
  let x := c.w.laneAddr f a l e
  let data := c.w.laneData f.d f.words l
  let marks := c.w.laneMarks f.d f.words l
  match f.space with
  | .priv => ((privParts c.w c.g c.gr.lrec x l f.size).zipIdx).map fun p =>
      { lane := l, part := p.2, space := .priv, asid := c.gr.asid, va := p.1.1, size := p.1.2, write := f.writes
        isAlias := s.onAlias c.gr.asid p.1.1, be := BitVec.ofNat 16 (2 ^ p.1.2 - 1)
        data := BitVec.ofNat 128 (data / 2 ^ (32 * p.2)), psn := BitVec.ofNat 4 (marks / 2 ^ p.2 % 2) }
  | .scratch =>
    let higher := (acting.filter fun h => decide (l < h)).map fun h => (0, 0, c.w.laneAddr f a h e)
    [{ lane := l, part := 0, space := .scratch, asid := c.gr.asid, va := x, size := f.size, write := f.writes
       be := laneEnables f.size (0, 0, x) (if f.act = .store then higher else []), data := BitVec.ofNat 128 data, psn := BitVec.ofNat 4 marks }]
  | .global =>
    let higher := (acting.filter fun h => decide (l < h)).map fun h => s.canon c.gr.asid (c.w.laneAddr f a h e)
    [{ lane := l, part := 0, space := .global, asid := c.gr.asid, va := x, size := f.size, write := f.writes
       isAlias := s.onAlias c.gr.asid x
       be := laneEnables f.size (s.canon c.gr.asid x) (if f.act = .store then higher else [])
       data := BitVec.ofNat 128 data, psn := BitVec.ofNat 4 marks }]

/-- A lane memory instruction's effect at issue: nothing with no acting lane (R40); the stall of R133; the checks of R378, all of
them before any access; then the operation enters (R225). -/
def State.issueMem (s : State) (i : Instr) (m : LmArgs) (f : MemForm) (c : Ctx) : State :=
  let ls := lanesOf (c.w.acting m.grd)
  let e := litOff m.off
  if ls.isEmpty then s.modWarp s.cur fun _ => c.w.next i
  else
    match c.w.produceWait m.prod with
    | some x => s.waitFor s.cur x
    | none =>
      match firstBad (ls.map fun l => s.checkLane c f m.addr l e) with
      | some (_, .fail cause) => s.takeTrap s.cur cause c.w.pc c.w.pc
      | some (va, _) => s.waitFor s.cur (.probe c.gr.asid va)
      | none =>
        let acc := ls.flatMap (s.laneAccesses c f m.addr e ls)
        let kind : OpKind := .mem f.act f.d f.size f.signed false
        (s.issueOp s.cur c.w c.g.core kind f.sc m.prod m.cons acc).1.modWarp s.cur fun w => w.next i

def LdSize.bytes : LdSize → Nat
  | .u8 | .s8 => 1 | .u16 | .s16 => 2 | .b32 => 4 | .b64 => 8 | .b128 => 16
def StSize.bytes : StSize → Nat
  | .b8 => 1 | .b16 => 2 | .b32 => 4 | .b64 => 8 | .b128 => 16
def SldSize.bytes : SldSize → Nat
  | .u8 | .s8 => 1 | .u16 | .s16 => 2 | .b32 => 4 | .b64 => 8
def SstSize.bytes : SstSize → Nat
  | .b8 => 1 | .b16 => 2 | .b32 => 4 | .b64 => 8
def CasSize.bytes : CasSize → Nat
  | .b32 => 4 | .b64 => 8

/-- The form of LD and ST in a space: a private access has scope wg, the code its word carries (R172). -/
def spaceForm (act : MemAct) (d size : Nat) (signed : Bool) (sp : LdSpace) : MemForm :=
  match sp with
  | .global sc => { act := act, d := d, size := size, signed := signed, space := .global, sc := sc }
  | .priv => { act := act, d := d, size := size, signed := signed, space := .priv, sc := .wg }

def execLd (d : Fin 128) (m : LmArgs) (sz : LdSize) (sp : LdSpace) (s : State) : Out :=
  issue (.ld d m sz sp) s (s.issueMem (.ld d m sz sp) m (spaceForm .load d (LdSize.bytes sz) (sz == .s8 || sz == .s16) sp))
def execSt (d : Fin 128) (m : LmArgs) (sz : StSize) (sp : LdSpace) (s : State) : Out :=
  issue (.st d m sz sp) s (s.issueMem (.st d m sz sp) m (spaceForm .store d (StSize.bytes sz) false sp))
def execLds (d : Fin 128) (m : LmArgs) (sz : LdSize) (sc : Scope) (s : State) : Out :=
  issue (.lds d m sz sc) s (s.issueMem (.lds d m sz sc) m
    { act := .load, d := d, size := LdSize.bytes sz, signed := sz == .s8 || sz == .s16, space := .scratch, sc := sc })
def execSts (d : Fin 128) (m : LmArgs) (sz : StSize) (sc : Scope) (s : State) : Out :=
  issue (.sts d m sz sc) s (s.issueMem (.sts d m sz sc) m
    { act := .store, d := d, size := StSize.bytes sz, space := .scratch, sc := sc })
def execAtom (d : Fin 128) (m : LmArgs) (op : AtomOp) (sc : Scope) (s : State) : Out :=
  issue (.atom d m op sc) s (s.issueMem (.atom d m op sc) m { act := .atom op, d := d, size := 4, space := .global, sc := sc })
def execRed (d : Fin 128) (m : LmArgs) (op : AtomOp) (sc : Scope) (s : State) : Out :=
  issue (.red d m op sc) s (s.issueMem (.red d m op sc) m { act := .red op, d := d, size := 4, space := .global, sc := sc })
def execAtomcas (d : Fin 128) (m : LmArgs) (sz : CasSize) (sc : Scope) (s : State) : Out :=
  issue (.atomcas d m sz sc) s (s.issueMem (.atomcas d m sz sc) m
    { act := .cas, d := d, size := CasSize.bytes sz, space := .global, sc := sc })

/-! ### SLD and SST (R183, R184) -/

/-- A scalar memory instruction's effect at issue: no key, one access of the scalar unit (lane number 32). -/
def State.issueScalar (s : State) (i : Instr) (a : Nat) (off : Option Word) (f : MemForm) (c : Ctx) : State :=
  let sum := c.w.scalarSum a (litOff off)
  match s.checkGlobal c.g.core c.gr.asid sum f with
  | (_, .fail cause) => s.takeTrap s.cur cause c.w.pc c.w.pc
  | (va, .miss) => s.waitFor s.cur (.probe c.gr.asid va)
  | (_, .ok _) =>
    let data := if f.writes then (c.w.sreg f.d).toNat + (if f.size = 8 then 2 ^ 32 * (c.w.sreg (f.d + 1)).toNat else 0) else 0
    let marks := if f.writes then (c.w.spsn f.d).toNat + (if f.size = 8 then 2 * (c.w.spsn (f.d + 1)).toNat else 0) else 0
    let acc : Access := { lane := 32, part := 0, space := .global, asid := c.gr.asid, va := sum, size := f.size, write := f.writes
                          isAlias := s.onAlias c.gr.asid sum, be := BitVec.ofNat 16 (2 ^ f.size - 1)
                          data := BitVec.ofNat 128 data, psn := BitVec.ofNat 4 marks }
    let kind : OpKind := .mem f.act f.d f.size f.signed true
    (s.issueOp s.cur c.w c.g.core kind f.sc 15 15 [acc]).1.modWarp s.cur fun w => w.next i

def execSld (d a : Fin 64) (sz : SldSize) (sc : Scope) (off : Option Word) (s : State) : Out :=
  issue (.sld d a sz sc off) s (s.issueScalar (.sld d a sz sc off) a off
    { act := .load, d := d, size := SldSize.bytes sz, signed := sz == .s8 || sz == .s16, space := .global, sc := sc })
def execSst (d a : Fin 64) (sz : SstSize) (sc : Scope) (off : Option Word) (s : State) : Out :=
  issue (.sst d a sz sc off) s (s.issueScalar (.sst d a sz sc off) a off
    { act := .store, d := d, size := SstSize.bytes sz, space := .global, sc := sc })

end Sys2Proof.Machine
end

