-- ==== Sys2Proof/Machine/MemEvents.lean ====
section
/-! DEFINITION. What accesses do after issue: the write-combining buffer (R123), the cluster cache, the home slice (R119 to R122),
alias pages (R117, R402), atomics (R125 to R128), loads' values (R225, R395), translation and frames (R115, R116, R118, R403). -/

namespace Sys2Proof.Machine

open Sys2Proof

/-! ### Same location (R145) -/

/-- Whether two accesses of one warp name a common byte. -/
def State.meet (s : State) (a b : Access) : Bool :=
  a.space == b.space &&
    (if a.space = .scratch then decide (a.va < b.va + b.size) && decide (b.va < a.va + a.size)
     else
      let x := s.canon a.asid a.va
      let y := s.canon b.asid b.va
      x.1 == y.1 && x.2.1 == y.2.1 && decide (x.2.2 < y.2.2 + b.size) && decide (y.2.2 < x.2.2 + a.size))

/-- Lanes that R145 orders: one lane with itself, and the scalar unit (32) with every lane (R184). -/
def sameLane (a b : Access) : Bool := a.lane == b.lane || a.lane == 32 || b.lane == 32

def OpKind.act? : OpKind → Option MemAct
  | .mem act _ _ _ _ => some act
  | _ => none

/-- The accesses that program order puts before access j of operation i: earlier ones of its lane on a common byte, and for ATOMCAS
those of lower lanes of the same instruction (R127, R145, R146). -/
def State.earlier (s : State) (i j : Nat) (o : Op) (a : Access) : List (Op × Access) :=
  ((s.ops.take i).flatMap fun p =>
    if p.warp == o.warp && p.kind.act?.isSome then (p.acc.filter fun b => sameLane a b && s.meet a b).map fun b => (p, b) else [])
    ++ (if o.kind.act? = some .cas then ((o.acc.take j).filter fun b => s.meet a b).map fun b => (o, b) else [])

/-- Whether an earlier access has come far enough for access a of operation o to go on. -/
def settled (o : Op) (a : Access) (p : Op × Access) : Bool :=
  match p.1.kind.act? with
  | some .load => p.2.stage == .done
  | some .store =>
    p.2.stage == .done ||
      (p.2.stage != .held && !a.isAlias && !p.2.isAlias && p.1.core == o.core && p.2.asid == a.asid &&
        (o.kind.act? == some .load || o.kind.act? == some .store) && p.2.stage != .remote)
  | some _ => p.2.stage == .fetched || p.2.stage == .done
  | none => true

/-- Whether a held access may leave its core: its snapshot has performed at its scope (R135), and program order on its bytes holds
(R145). -/
def State.mayGo (s : State) (i j : Nat) (o : Op) (a : Access) : Bool :=
  s.snapAt o o.sc && (s.earlier i j o a).all (settled o a)

/-! ### The write-combining buffer (R123) -/

/-- The lines of a core's buffer: ASID, line, the stamp of the oldest store. -/
def State.wcbLines (s : State) (k : Nat) : List (Nat × Nat × Nat) :=
  (s.pendingStores .wcb fun c => c == k).foldl (fun ls a =>
    if ls.any fun l => l.1 == a.asid && l.2.1 == a.va / 128 then
      ls.map fun l => if l.1 == a.asid && l.2.1 == a.va / 128 then (l.1, l.2.1, min l.2.2 a.stamp) else l
    else ls ++ [(a.asid, a.va / 128, a.stamp)]) []

/-- Room in the buffer for a line: with four other lines present the oldest drains first. -/
def State.wcbRoom (s : State) (k asid line : Nat) : State :=
  let ls := s.wcbLines k
  if ls.any (fun l => l.1 == asid && l.2.1 == line) || ls.length < 4 then s
  else
    match ls with
    | [] => s
    | x :: xs =>
      let old := xs.foldl (fun b l => if l.2.2 < b.2.2 then l else b) x
      s.drainLine k old.1 old.2.1 false

/-- A store enters its core's buffer and updates a present L1 copy (R112). -/
def State.enterWcb (s : State) (i j : Nat) (o : Op) (a : Access) : State :=
  let s := s.wcbRoom o.core a.asid (a.va / 128)
  let s := s.modAcc i j fun a => { a with stage := .wcb, stamp := s.stamp }
  let s := { s with stamp := s.stamp + 1 }
  s.modCore o.core fun c => { c with l1 := cacheStore c.l1 a.asid a.va a.size a.be.toNat a.data.toNat a.psn.toNat }

/-! ### Scratchpad and private accesses -/

/-- A scratchpad access performs (R111). -/
def State.doScratch (s : State) (i j : Nat) (o : Op) (a : Access) : State :=
  if a.write then
    let s := s.modWg o.wg fun (g : Workgroup) =>
      { g with scratch := Memory.setMasked g.scratch a.va a.size a.be.toNat a.data.toNat
               scrPsn := Marks.write g.scrPsn a.va a.size a.be.toNat a.psn.toNat }
    s.modAcc i j fun a => { a with stage := .done }
  else
    match s.wgs[o.wg]? with
    | none => s
    | some g => s.modAcc i j fun a => { a with stage := .done, data := BitVec.ofNat 128 (Memory.getN g.scratch a.va a.size)
                                               psn := BitVec.ofNat 4 (Marks.read g.scrPsn a.va a.size) }

/-- The core a workgroup's private lines lie in. -/
def State.privCore (s : State) (o : Op) : Nat := match s.wgs[o.wg]? with
  | some g => g.core
  | none => o.core

/-- A private access performs in the L1 (R110, R122), where its line is allocated; a store waits for a way. -/
def State.doPriv (s : State) (i j : Nat) (o : Op) (a : Access) : State :=
  let k := s.privCore o
  if a.write then
    if s.privRoom k a.asid a.va then
      (s.privWrite k a.asid a.va a.size a.data.toNat a.psn.toNat).modAcc i j fun a => { a with stage := .done }
    else s
  else
    let (v, p) := s.privRead k a.asid a.va a.size
    let s := if s.privRoom k a.asid a.va then s.privFetch k a.asid a.va else s
    s.modAcc i j fun a => { a with stage := .done, data := BitVec.ofNat 128 v, psn := BitVec.ofNat 4 p }

/-! ### Copies and invalidations (R119) -/

/-- The global copies of va's grain leave the L1s of the cores chosen. -/
def State.dropL1 (s : State) (asid va : Nat) (onCore : Nat → Bool) : State :=
  let grain := s.grainOf asid va
  let f := fun (k : Nat) (c : Core) => if onCore k then { c with l1 := cacheDrop c.l1 asid va grain } else c
  { s with cores := s.cores.mapIdx f }

/-- The global copies of va's grain leave the chosen clusters: their caches and their cores' L1s. -/
def State.dropClusters (s : State) (asid va : Nat) (onCl : Nat → Bool) : State :=
  let grain := s.grainOf asid va
  let f := fun (i : Nat) (c : Cluster) => if onCl i then { c with cache := cacheDrop c.cache asid va grain } else c
  ({ s with clusters := s.clusters.mapIdx f }).dropL1 asid va fun k => onCl (coreCl k)

/-- The invalidations of a write that arrives at home from a cluster (R119): the home die's other clusters lose their copies. -/
def State.invalidate (s : State) (asid va : Nat) (from? : Option Nat) : State :=
  s.dropClusters asid va fun c => c / 16 == homeDie va && some c != from?

/-- Whether a load bypasses the cached copies: pkg or sys scope on a remote line (R121). -/
def bypasses (o : Op) (a : Access) : Bool := decide (4 ≤ o.sc.code) && homeDie a.va != coreDie o.core

/-! ### Late failures (R402) -/

/-- The die that rejects an access: the canonical home's, or for an alias entry that no longer leads to one the alias address's home (R398). -/
def State.rejectDie (s : State) (asid va : Nat) : Nat :=
  match s.entryAt asid va with
  | some e => if e.valid && e.isAlias && e.cChip == s.chip then homeDie (e.cPage * 2 ^ 16) else homeDie va
  | none => homeDie va

/-- A LATE record on the die that rejects the access. -/
def State.logLate (s : State) (o : Op) (va cause kind : Nat) : State :=
  match s.warps[o.warp]?, s.wgs[o.wg]? with
  | some w, some g =>
    match s.grids[g.grid]? with
    | some gr => s.logMem (s.rejectDie gr.asid va) (recordWords 4 0 gr.asid g.seq (whereWord o.core (w.index gr.lrec) w.slot) va
        (BitVec.ofNat 32 cause) (BitVec.ofNat 32 kind))
    | none => s
  | _, _ => s

/-- The INFO2 code of an access: load, store, atomic. -/
def MemAct.lateKind : MemAct → Nat
  | .load => 1
  | .store => 2
  | _ => 3

/-- An access ends with a late failure (R402): of a load every acting lane's word is poisoned, so all the operation's accesses take the mark;
an atomic's word is poisoned; a store or RED does nothing. -/
def State.endLate (s : State) (i j : Nat) : State :=
  let s := s.modAcc i j fun a => { a with stage := .done, psn := BitVec.allOnes 4, late := true, install := false }
  s.modOp i fun o => if o.kind.act? = some .load then { o with acc := o.acc.map fun a => { a with late := true } } else o

/-! ### Messages to other packages -/

/-- The accesses of an operation that one request of access a covers: for ATOM and RED every one at the same stage that names the same
address (R125), else a alone. -/
def atomGroup (o : Op) (j : Nat) (a : Access) (act : MemAct) : List Nat :=
  match act with
  | .atom _ | .red _ => (List.range o.acc.length).filter fun n => match o.acc[n]? with
      | some b => b.stage == a.stage && b.va == a.va && b.asid == a.asid
      | none => false
  | _ => [j]

/-- The words that the contributions of a request carry, in ascending lane order (R125). -/
def groupWords (o : Op) (ns : List Nat) : List Word := ns.map fun n => BitVec.ofNat 32 (((o.acc[n]?).map fun b => b.data.toNat).getD 0)

/-- An atomic access receives its old value: ATOM and ATOMCAS expect a response, RED has performed (R131). -/
def State.atomResult (s : State) (i j : Nat) (v psn : Nat) (red : Bool) : State :=
  let s := s.modAcc i j fun a => { a with stage := if red then .done else .fetched, data := BitVec.ofNat 128 v, psn := BitVec.ofNat 4 psn }
  s.modOp i fun o => if o.status == .issued && o.acc.all (fun a => a.stage == .fetched || a.stage == .done) then { o with status := .performed } else o

/-- An access that failed at its home in another package, or that cannot get there (R402, R421): a load's or an atomic's word is poisoned, a
store does nothing more. -/
def State.failAcc (s : State) (i j : Nat) (o : Op) (act : MemAct) : State :=
  match o.kind, act with
  | .mem (.red _) _ _ _ _, _ => (s.endLate i j).atomResult i j 0 15 true
  | .mem .load _ _ _ _, _ | .mem .store _ _ _ _, _ => s.endLate i j
  | .mem _ _ _ _ _, _ => (s.endLate i j).atomResult i j 0 15 false
  | _, .store => s.endLate i j
  | _, _ => s.modAcc i j fun a => { a with stage := .fetched, data := 0, psn := 15, late := true }

/-- An access of another package's page is sent (R117, R421): without a route it fails late, in training it waits. The lanes of an ATOM or RED
on one address go as one request (R125). -/
def State.sendRemote (s : State) (i j : Nat) (o : Op) (a : Access) (act : MemAct) (chip asid va : Nat) : State :=
  let ns := atomGroup o j a act
  match s.route chip with
  | .unreachable | .home => ns.foldl (fun s n => (s.logLate o a.va 0x10 act.lateKind).failAcc i n o act) s
  | .waits _ => s
  | .group g =>
    let t := accTag i j
    let m : FabMsg := match act with
      | .load => .read t asid va a.size
      | .store => .write t asid va a.size a.be a.data a.psn
      | .atom op | .red op => .atom t asid va op (groupWords o ns)
      | .cas => .cas t asid va (a.size == 8) (BitVec.ofNat 64 (a.data.toNat % 2 ^ (8 * a.size))) (BitVec.ofNat 64 (a.data.toNat / 2 ^ (8 * a.size)))
    (ns.foldl (fun s n => s.modAcc i n fun a => { a with stage := .remote, stamp := s.now }) s).send g chip m

/-- What an access of an alias page meets when it arrives (R117, R402), or of an ordinary page whose frame is awaited. -/
inductive Arrival where
  | go (key asid va : Nat)             -- physical key, canonical ASID and address
  | waits
  | late (cause : Nat)
  | away (chip asid va : Nat)
  deriving DecidableEq, Repr

/-- Whether an access from die d to an address homed on die e cannot get there, an alias by way of its own address's home slice (R117, R421). -/
def State.pathCut (s : State) (d : Nat) (a : Access) (e : Nat) : Bool :=
  if a.isAlias then s.cutOff d (homeDie a.va) || s.cutOff (homeDie a.va) e else s.cutOff d e

/-- Whether a link on that way retrains (R416). -/
def State.pathHeld (s : State) (d : Nat) (a : Access) (e : Nat) : Bool :=
  if a.isAlias then s.linkHeld d (homeDie a.va) || s.linkHeld (homeDie a.va) e else s.linkHeld d e

/-- Where a global access from die d goes at home. A die that cannot be reached is a failure (R421), a link that retrains holds it (R416); a frame
beyond the fitted memory never answers. -/
def State.arrival (s : State) (d : Nat) (a : Access) (write atomics : Bool) : Arrival :=
  match s.place a.asid a.va with
  | .alloc _ _ | .absent => .waits
  | .foreign c x v => if s.cutOff d (homeDie a.va) || (s.die (homeDie a.va)).isolated then .late 0x10
    else if s.pathHeld d a 4 then .waits else .away c x v
  | .unmapped => .late 0x10
  | .here k x v =>
    if s.pathCut d a (homeDie v) then .late 0x10
    else if s.pathHeld d a (homeDie v) then .waits
    else if a.isAlias then
      match permCheck (s.probeWord a.asid a.va) write atomics with
      | .fail c => .late c
      | _ => .go k x v
    else .go k x v

/-- An access that goes to home leaves its traces on the way: the remap filter reads the entry of an alias page (R117), and a page without a
frame is wanted (R115). -/
def State.onWay (s : State) (a : Access) : State := (if a.isAlias then s.remapFill a.asid a.va else s).wantFrame a.asid a.va

/-! ### Atomics (R125 to R128) -/

/-- The AOP of an act. -/
def MemAct.aop? : MemAct → Option AtomOp
  | .atom op | .red op => some op
  | _ => none

/-- A request goes on to the atomic unit. -/
def State.queueAtomic (s : State) (r : AtomReq) : State := { s with atomQ := s.atomQ ++ [r] }

/-- A request reaches its cluster's combining buffer: it joins a request of the same address and operation, takes an entry, or
finds the buffer full and goes on (R125). -/
def State.combineAtomic (s : State) (r : AtomReq) : State :=
  let cs := (s.cluster r.cluster).combine
  let same := fun (x : AtomReq) => x.asid == r.asid && x.va == r.va && x.act.aop? == r.act.aop?
  if cs.any same then
    let join := fun (x : AtomReq) => if same x then { x with contribs := x.contribs ++ r.contribs } else x
    s.modCluster r.cluster fun c => { c with combine := c.combine.map join }
  else if cs.length < 64 then s.modCluster r.cluster fun c => { c with combine := c.combine ++ [r] }
  else s.queueAtomic r

/-- An atomic leaves its core. On a remote line the core's and the cluster's copies of the grain go first (R226). -/
def State.sendAtomic (s : State) (i j : Nat) (o : Op) (a : Access) (act : MemAct) : State :=
  let cl := coreCl o.core
  match s.arrival (coreDie o.core) a true true with
  | .away c x v => s.sendRemote i j o a act c x v
  | _ =>
    let ns := atomGroup o j a act
    let contribs := (ns.zip (groupWords o ns)).map fun p => ({ op := i, acc := p.1, x := p.2 } : Contrib)
    let cas := if act = .cas then
        some (a.size, BitVec.ofNat 64 (a.data.toNat % 2 ^ (8 * a.size)), BitVec.ofNat 64 (a.data.toNat / 2 ^ (8 * a.size)))
      else none
    let r : AtomReq := { cluster := cl, asid := a.asid, va := a.va, act := act, contribs := contribs, cas := cas }
    let s := if homeDie a.va ≠ coreDie o.core ∧ !a.isAlias then
        (s.dropL1 a.asid a.va fun k => k == o.core).modCluster cl fun c => { c with cache := cacheDrop c.cache a.asid a.va (s.grainOf a.asid a.va) }
      else s
    let s := ns.foldl (fun s n => s.modAcc i n fun a => { a with stage := .remote }) s
    if act = .cas || a.isAlias then s.queueAtomic r else s.combineAtomic r

/-- One step of an integer atomic (R226). -/
def aopStep (op : AtomOp) (old x : Word) : Word :=
  match op with
  | .add => old + x
  | .umin => uminW old x
  | .umax => umaxW old x
  | .smin => sminW old x
  | .smax => smaxW old x
  | .and => old &&& x
  | .or => old ||| x
  | .xor => old ^^^ x
  | .xchg => x
  | .fadd => (faddW old x).1

/-- The contributions' old values and the word's new value for the integer operations (R126). -/
def aopFold (op : AtomOp) : Word → List Word → List Word × Word
  | w, [] => ([], w)
  | w, x :: xs =>
    let (olds, last) := aopFold op (aopStep op w x) xs
    (w :: olds, last)

/-- The same for fadd: exact sums, one rounding of the word (R126). -/
def faddFold (acc : Num × Bool) : List Word → List Word × (Num × Bool)
  | [] => ([], acc)
  | x :: xs =>
    let n := acc.1.add (f32 x)
    let (olds, last) := faddFold (n.1, acc.2 || n.2) xs
    ((roundOp acc).1 :: olds, last)

/-- The old values that the contributions receive, the new word, the flags (R126). The first contribution of an fadd receives RoundNE of the
old word alone: a NaN becomes the canonical NaN (R87), −0 stays −0 (DEDUCED, notes/assumptions/95.md). -/
def atomApply (op : AtomOp) (old : Word) (xs : List Word) : List Word × Word × Word :=
  if op = .fadd then
    let (olds, last) := faddFold (f32 old, false) xs
    let (w, f) := roundOp last
    (olds, w, f)
  else
    let (olds, last) := aopFold op old xs
    (olds, last, 0)

/-- The lanes of an operation that a request covers, as a mask. -/
def Op.lanesOf (o : Op) (accs : List Nat) : Word :=
  accs.foldl (fun m n => match o.acc[n]? with
    | some a => m ||| BitVec.ofNat 32 (2 ^ a.lane)
    | none => m) 0

/-- The RED of operation i is discarded on a poisoned word: one record for the request, on die d, with the mask of its lanes (R394, R398, R400). -/
def State.logRed (s : State) (i : Nat) (accs : List Nat) (d : Nat) : State :=
  match s.ops[i]? with
  | none => s
  | some o =>
    match s.warps[o.warp]?, s.wgs[o.wg]? with
    | some w, some g => match s.grids[g.grid]? with
      | some gr => s.logMem d (recordWords 3 0 gr.asid g.seq (whereWord o.core (w.index gr.lrec) w.slot) o.pc.toNat (o.lanesOf accs) 0)
      | none => s
    | _, _ => s

/-- A discarded bump of CPYX is logged once for its request (R406, notes/assumptions/18.md). -/
def State.logBump (s : State) (r : AtomReq) : State :=
  match r.contribs with
  | [] => s
  | c :: _ => match s.ops[c.op]? with
    | some o => match o.kind, s.warps[o.warp]? with
      | .cmd (.copy .x _), some w => s.logMemWarp w 3 o.pc.toNat (BitVec.allOnes 32) 0
      | _, _ => s
    | none => s

/-- Whether a contribution is a RED's. -/
def State.isRed (s : State) (c : Contrib) : Bool :=
  match (s.ops[c.op]?).map Op.kind with
  | some (.mem (.red _) _ _ _ _) => true
  | _ => false

/-- A request's contributions receive a poisoned word, or are discarded (R394) by the home on die d. -/
def State.atomPoisoned (s : State) (r : AtomReq) (v d : Nat) : State :=
  let reds := r.contribs.filter s.isRed
  let ofOp := fun i => (reds.filter fun c => c.op == i).map Contrib.acc
  let s := (reds.map Contrib.op).eraseDups.foldl (fun s i => s.logRed i (ofOp i) d) (s.logBump r)
  r.contribs.foldl (fun s c => s.atomResult c.op c.acc v 15 (s.isRed c)) s

/-- A request applied at the canonical home, as one step (R125, R126, R227). -/
def State.applyAtomic (s : State) (r : AtomReq) (key asid va : Nat) : State :=
  let size := match r.cas with
    | some (n, _) => n
    | none => 4
  let s := s.sliceFill key asid va
  let old := Memory.getN s.mem key size
  let s := s.dropClusters asid va fun c => c / 16 == homeDie va || c == r.cluster
  if Marks.read s.memPsn key size ≠ 0 then s.atomPoisoned r old (homeDie va)
  else
    match r.cas with
    | some (_, cmp, new) =>
      let s := if BitVec.ofNat 64 old = cmp then s.writeAt key asid va size (2 ^ size - 1) new.toNat 0 else s
      r.contribs.foldl (fun s c => s.atomResult c.op c.acc old 0 false) s
    | none =>
      let (olds, w, f) := atomApply ((r.act.aop?).getD .add) (BitVec.ofNat 32 old) (r.contribs.map Contrib.x)
      let s := s.writeAt key asid va 4 15 w.toNat 0
      (r.contribs.zip olds).foldl (fun s p =>
        let s := s.atomResult p.1.op p.1.acc p.2.toNat 0 (s.isRed p.1)
        match s.ops[p.1.op]? with
        | some o => s.modWarp o.warp fun (x : Warp) => if x.status == .running then x.raise f else x
        | none => s) s

/-- A request ends late (R402). -/
def State.lateAtomic (s : State) (r : AtomReq) (cause : Nat) : State :=
  r.contribs.foldl (fun s c => match s.ops[c.op]? with
    | some o => ((s.logLate o r.va cause 3).endLate c.op c.acc).atomResult c.op c.acc 0 15 (s.isRed c)
    | none => s) s

/-- The grain of a canonical address: its first byte's number in units of the page's grain (R113). -/
def State.grainNo (s : State) (asid va : Nat) : Nat := va / 2 ^ (5 + 2 * s.grainOf asid va)

/-- The grain that an address names, aliases resolved: chip, ASID, grain (R128). -/
def State.grainAt (s : State) (asid va : Nat) : Nat × Nat × Nat :=
  let c := s.canon asid va
  (c.1, c.2.1, s.grainNo c.2.1 c.2.2)

/-- ATOMIC_REQUEST: request i of the home units is applied; requests to one grain go in order of arrival (R126, R128). -/
def execAtomicRequest (i : Nat) (s : State) : Out :=
  .next (match s.atomQ[i]? with
    | none => s
    | some r =>
      if (s.atomQ.take i).any fun x => s.grainAt x.asid x.va == s.grainAt r.asid r.va then s
      else
        let a : Access := { lane := 0, part := 0, space := .global, asid := r.asid, va := r.va, size := 4, write := true, isAlias := s.onAlias r.asid r.va }
        let s1 := { s with atomQ := s.atomQ.eraseIdx i }
        match s.arrival (r.cluster / 16) a true true with
        | .waits => s.onWay a
        | .away _ _ _ => s1.lateAtomic r 0x10
        | .late c => s1.lateAtomic r c
        | .go k x v => (s1.onWay a).applyAtomic r k x v)

/-- COMBINE_WINDOW_EXPIRY (R125). -/
def execCombineWindowExpiry (cluster i : Nat) (s : State) : Out :=
  .next (match (s.cluster cluster).combine[i]? with
    | none => s
    | some r => (s.modCluster cluster fun c => { c with combine := c.combine.eraseIdx i }).queueAtomic r)

/-! ### An access goes on from its core -/

/-- An access held at its core goes on: the lanes of an ATOM or RED on one address together, once each may (R125, R145). An access that waits
for an earlier store of its lane on a common byte makes that store's lines drain first (R123). -/
def State.advance (s : State) (i j : Nat) : State :=
  match s.ops[i]? with
  | none => s
  | some o =>
    match o.acc[j]?, o.kind.act? with
    | some a, some act =>
      match a.stage with
      | .wcb => s.drainLine o.core a.asid (a.va / 128) false
      | .held =>
        if (atomGroup o j a act).all fun n => match o.acc[n]? with
            | some b => s.mayGo i n o b
            | none => true then
          match a.space with
          | .scratch => s.doScratch i j o a
          | .priv => if a.isAlias then s else s.doPriv i j o a
          | .global => match act with
            | .load => s
            | .store => if a.isAlias then s else s.enterWcb i j o a
            | act => s.sendAtomic i j o a act
        else (s.earlier i j o a).foldl (fun s p => if settled o a p then s else s.drainOp p.1) s
      | _ => s
    | _, _ => s

/-- WCB_IDLE_DRAIN (R123). -/
def execWcbIdleDrain (core asid line : Nat) (s : State) : Out := .next (s.drainLine core asid line false)

/-! ### The cluster cache -/

/-- Whether an older store of the same core, or on the way from the same cluster, on common bytes is not yet as far (R145). -/
def State.olderStore (s : State) (stages : List Stage) (near : Nat → Bool) (a : Access) : Bool :=
  s.ops.any fun p => near p.core && p.acc.any fun b =>
    b.write && b.space == .global && !b.isAlias && stages.contains b.stage && decide (b.stamp < a.stamp) && b.asid == a.asid &&
      decide (a.va < b.va + b.size) && decide (b.va < a.va + a.size)

/-- Whether another draining line of the core holds a store that a waiting key or a same-address access needs: it goes first (R123). -/
def State.urgentLine (s : State) (k : Nat) (a : Access) : Bool :=
  s.ops.any fun p => p.core == k && p.acc.any fun b => b.stage == .drained && b.first && !(b.asid == a.asid && b.va / 128 == a.va / 128)

/-- A drained store updates the cluster cache and invalidates the other L1 copies (R112, R119); a load that
missed in its core reads the cluster cache or goes on to the home slice (R121). -/
def State.memAtCluster (s : State) (op acc : Nat) : State :=
  match s.ops[op]? with
    | none => s
    | some o =>
      match o.acc[acc]?, o.kind.act? with
      | some a, some act =>
        let cl := coreCl o.core
        if a.space ≠ .global ∨ a.isAlias then s
        else match act, a.stage with
          | .store, .drained =>
            if s.olderStore [.wcb, .drained] (fun k => k == o.core) a || (!a.first && s.urgentLine o.core a) then s
            else
              let s := s.modCluster cl fun c => { c with cache := cacheStore c.cache a.asid a.va a.size a.be.toNat a.data.toNat a.psn.toNat }
              let s := s.dropL1 a.asid a.va fun k => coreCl k == cl && k != o.core
              let s := s.modAcc op acc fun a => { a with stage := .atCl, stamp := s.stamp }
              { s with stamp := s.stamp + 1 }
          | .load, .held =>
            if s.mayGo op acc o a then
              match if bypasses o a then none else gather (s.clusterByte o.core a.asid) a.va a.size with
              | some (v, p) => s.modAcc op acc fun a =>
                  { a with stage := .fetched, data := BitVec.ofNat 128 v, psn := BitVec.ofNat 4 p, fromCl := true }
              | none => s.modAcc op acc fun a => { a with stage := .atCl }
            else s
          | _, _ => s
      | _, _ => s

/-! ### The home slice -/

/-- The home slice of an address: its die, its physical slice (R32). -/
def State.homeAt (s : State) (va : Nat) : Nat × Nat := (homeDie va, homeSlice (s.die (homeDie va)) va)

/-- Whether an operation has a request that stands at a home slice: one that waits for a frame, an atomic in the queue (R410). -/
def State.standsAt (s : State) (sl : Nat × Nat) (i : Nat) : Bool :=
  (s.atomQ.any fun r => s.homeAt r.va == sl && r.contribs.any fun c => c.op == i) ||
    (match s.ops[i]? with
    | some o => o.acc.any fun a => a.atHome && a.stage != .done && a.stage != .fetched && s.homeAt a.va == sl
    | none => false)

/-- The keys of warps, by warp and key, that an operation is a member of. -/
def State.keysOf (s : State) (i : Nat) : List (Nat × Nat) :=
  (List.range s.warps.length).flatMap fun n => match s.warps[n]? with
    | some w => ((List.range 15).filter fun k => (w.keySet k).any fun m => m.chip.isNone && m.op == i).map fun k => (n, k)
    | none => []

/-- The tracking counters of a home slice in use: one for each key of a warp that has members there (R410). -/
def State.countersAt (s : State) (sl : Nat × Nat) : List (Nat × Nat) :=
  (((List.range s.ops.length).filter (s.standsAt sl)).flatMap s.keysOf).eraseDups

/-- Whether a request of an operation needs a counter of its address's home slice, and none of the 16,384 is free (R410). -/
def State.noCounter (s : State) (i : Nat) (a : Access) : Bool :=
  let used := s.countersAt (s.homeAt a.va)
  decide (16384 ≤ used.length) && (s.keysOf i).any fun k => !used.contains k

/-- A store arrives at home (R122): written there, the tracked copies of other clusters gone. -/
def State.storeHome (s : State) (i j : Nat) (o : Op) (a : Access) (key asid va : Nat) : State :=
  let s := s.writeAt key asid va a.size a.be.toNat a.data.toNat a.psn.toNat
  (s.invalidate asid va (if a.isAlias then none else some (coreCl o.core))).modAcc i j fun a => { a with stage := .done }

/-- A load is served at home, where its grain is fetched (R112). -/
def State.loadHome (s : State) (i j : Nat) (o : Op) (a : Access) (key asid va : Nat) : State :=
  let (v, p) := if a.isAlias then (Memory.getN s.mem key a.size, Marks.read s.memPsn key a.size)
    else (gather (fun b => some (s.coreHomeByte o.core (bypasses o a) a.asid b)) a.va a.size).getD (0, 0)
  (s.sliceFill key asid va).modAcc i j fun a => { a with stage := .fetched, data := BitVec.ofNat 128 v, psn := BitVec.ofNat 4 p }

/-- Whether a load that bypasses the cached copies may be served at home: an earlier store of its lane on a common byte is there, or still
in its core's buffer, whose bytes it reads (R121, R123, R145). -/
def State.bypassReady (s : State) (i j : Nat) (o : Op) (a : Access) : Bool :=
  !bypasses o a || (s.earlier i j o a).all fun p => p.2.stage == .done || p.2.stage == .wcb || p.2.stage == .drained || p.1.kind.act? != some .store

/-- HOME_REQUEST for an access of a lane or scalar memory instruction (R117, R122, R402): of a global address, or of a private one whose
area lies in an alias page. -/
def State.memAtHome (s : State) (i j : Nat) (o : Op) (a : Access) (act : MemAct) : State :=
  let ready := match act, a.stage with
    | .store, .atCl => !s.olderStore [.wcb, .drained, .atCl] (fun k => coreCl k == coreCl o.core) a
    | .load, .atCl => s.bypassReady i j o a
    | _, .held => a.isAlias && (act == .load || act == .store) && s.mayGo i j o a
    | _, _ => false
  if !ready ∨ a.space = .scratch then s
  else if s.noCounter i a then s.modAcc i j fun a => { a with noCtr := true }
  else
    let s1 := s.onWay a
    match s.arrival (coreDie o.core) a (act == .store) false with
    | .waits => s1.modAcc i j fun a => { a with atHome := true, noCtr := false }
    | .away c x v => s1.sendRemote i j o a act c x v
    | .late c => (s.logLate o a.va c act.lateKind).endLate i j
    | .go k x v => if act == .store then s1.storeHome i j o a k x v else s1.loadHome i j o a k x v

/-- A line of the L1 filled from the cluster cache's copy: the sectors of the grain that the cluster holds, the core's own stores over them
(R112, R113). -/
def State.fillL1Line (s : State) (k asid va grain line : Nat) : State :=
  let cl := (s.cluster (coreCl k)).cache
  match cacheLine cl asid (128 * line) with
  | none => s
  | some l =>
    let sectors := (l.valid &&& BitVec.ofNat 4 (grainSectors grain va)).toNat
    let get := fun b => match s.wcbByte k asid b with
      | some v => v
      | none => (cacheByte cl asid b).getD (0, false)
    if sectors ≠ 0 ∧ !l.isPriv ∧ cacheRoom 1 128 (s.core k).l1 asid line then
      s.modCore k fun c => { c with l1 := cacheFillLine c.l1 asid line grain sectors false get }
    else s

/-- The response of a load fills the copies (R112, R113, R120): what the home slice served goes into the cluster cache; the L1 fills from the
cluster cache's copy. -/
def State.fillCopies (s : State) (o : Op) (a : Access) : State :=
  if a.isAlias || !a.install then s
  else
    let grain := s.grainOf a.asid a.va
    let cl := coreCl o.core
    let s := if a.fromCl then s
      else s.modCluster cl fun c => { c with cache := cacheFill 2 4096 c.cache a.asid a.va grain fun b => s.clHomeByte cl a.asid b }
    (grainLines grain a.va).foldl (fun s n => s.fillL1Line o.core a.asid a.va grain n) s

/-- The response of an access reaches its requester (R120, R321); a link that retrains holds it (R416). -/
def State.memResponse (s : State) (op acc : Nat) : State :=
  match s.ops[op]? with
    | none => s
    | some o =>
      match o.acc[acc]?, o.kind.act? with
      | some a, some act =>
        if a.stage ≠ .fetched ∨ (a.space == .global && s.linkHeld (homeDie a.va) (coreDie o.core)) then s
        else
          let s := if act = .load then s.fillCopies o a else s
          s.modAcc op acc fun a => { a with stage := .done }
      | _, _ => s

/-! ### Loads: values and registers (R223, R225, R395) -/

/-- The bytes of lane l, its words joined. -/
def laneValue (o : Op) (l : Nat) : Nat :=
  (o.acc.filter fun a => a.lane == l).foldl (fun v a => v + a.data.toNat % 2 ^ (8 * a.size) * 2 ^ (32 * a.part)) 0

/-- The marks of lane l's words; after a late failure of a load every acting lane's words are poisoned (R402). -/
def lanePsn (o : Op) (l : Nat) : Nat :=
  (o.acc.filter fun a => a.lane == l).foldl (fun v a =>
    v + (if o.kind.act? = some .load ∧ a.late then 2 ^ ((a.size + 3) / 4) - 1 else a.psn.toNat) * 2 ^ a.part) 0

/-- Register d + n of a load of a size: the value it receives (R223). -/
def loadWord (size : Nat) (signed : Bool) (v n : Nat) : Word :=
  if signed then word (sext (8 * size) v) else BitVec.ofNat 32 (v % 2 ^ (8 * size) / 2 ^ (32 * n))

/-- The lanes of an operation that received a poisoned word. -/
def poisonedLanes (o : Op) : LaneMask := laneMask fun l => lanePsn o l != 0

/-- The warp with the destination of a completed load, ATOM or ATOMCAS written. -/
def Warp.loaded (w : Warp) (o : Op) (d size : Nat) (signed scalar : Bool) : Warp :=
  if scalar then
    let w := w.setS d (loadWord size signed (laneValue o 32) 0) (lanePsn o 32 % 2 == 1)
    if size = 8 then w.setS (d + 1) (loadWord size signed (laneValue o 32) 1) (lanePsn o 32 / 2 % 2 == 1) else w
  else
    let m := laneMask fun l => o.acc.any fun a => a.lane == l
    (List.range ((size + 3) / 4)).foldl (fun w n =>
      w.setLanes (d + n) m (fun l => loadWord size signed (laneValue o l) n) (fun l => lanePsn o l / 2 ^ n % 2 == 1)) w

/-- A poisoned load raises trap 0x15 at the warp's next issue; the earliest in program order is named (R395). -/
def Warp.poisonedBy (w : Warp) (i : Nat) : Warp :=
  { w with psnTrap := match w.psnTrap with
      | some j => some (min i j)
      | none => some i }

/-- A load's destination is written; a killed warp's destination is discarded (R381). `aux` records it. -/
def State.writeLoad (s : State) (i : Nat) (o : Op) (d size : Nat) (signed scalar : Bool) : State :=
  let done := fun (o : Op) => { o with aux := [1], status := if o.status == .complete then .complete else .performed }
  let s := s.modOp i done
  match s.warps[o.warp]? with
  | none => s
  | some w =>
    if w.status ≠ .running then s
    else
      let psn := if scalar then lanePsn o 32 != 0 else poisonedLanes o != 0
      let s := s.modWarp o.warp fun w => let w := w.loaded o d size signed scalar
        if psn then w.poisonedBy i else w
      if psn then s.logMemWarp w 3 o.pc.toNat (if scalar then BitVec.allOnes 32 else poisonedLanes o) 0 else s

/-- A held load takes its value from the core's own copies: the write-combining buffer, then the L1 (R121, R123). -/
def State.fixHeld (s : State) (i j : Nat) : State :=
  match s.ops[i]? with
  | none => s
  | some o => match o.acc[j]? with
    | none => s
    | some a =>
      if a.stage = .held ∧ a.space = .global ∧ !a.isAlias ∧ s.mayGo i j o a then
        let src := if bypasses o a then s.wcbByte o.core a.asid else s.coreByte o.core a.asid
        match gather src a.va a.size with
        | some (v, p) => s.modAcc i j fun a => { a with stage := .done, data := BitVec.ofNat 128 v, psn := BitVec.ofNat 4 p }
        | none => s
      else s

/-- A load's value is fixed (R225, R395): accesses that hit in the core are fixed; once every access is, the registers are written; those of an
evicted workgroup once it is restored (notes/assumptions/41.md). -/
def State.fixLoad (s : State) (op : Nat) : State :=
  match s.ops[op]? with
    | none => s
    | some o =>
      if !o.awaitsValue then s
      else
        let s := if o.kind.act? = some .load then (List.range o.acc.length).foldl (fun s j => s.fixHeld op j) s else s
        match s.ops[op]? with
        | some o => match o.kind with
          | .mem _ d size signed scalar =>
            if !(o.acc.all fun a => a.stage == .done) then s
            else if ((s.wgs[o.wg]?).map Workgroup.status) == some .evicted then
              s.modOp op fun o => { o with status := if o.status == .complete then .complete else .performed }
            else s.writeLoad op o d size signed scalar
          | _ => s
        | none => s

/-! ### Completion (R131, R133) -/

/-- Whether an operation may leave its key sets now: it has performed at sys scope. -/
def State.canComplete (s : State) (i : Nat) : Bool :=
  match s.ops[i]? with
  | some o => o.status != .complete && s.opLevel i == 5 &&
      (match o.kind with
      | .mem .. => true
      | .amsend .. => o.status == .performed
      | .launch .. | .mcld .. | .nred .. | .time .. | .cmd .. => o.status == .performed
      | .steal .. => true)
  | none => false

/-- A store queue that holds no unperformed operation any more starts its key tracking counters anew (R397). -/
def State.settleQueue (s : State) : State :=
  { s with slowQ := s.slowQ.filter fun k => (List.range s.ops.length).any fun j => ((s.ops[j]?).map Op.core) == some k && s.underWay j }

/-- OPERATION_COMPLETE (R133): the operation leaves every key set that held it; a store queue that has lost a counter delays it (R397). -/
def execOperationComplete (op : Nat) (s : State) : Out :=
  .next (if s.canComplete op && !s.heldQueue op then (s.completeOp op).settleQueue else s)

/-! ### Frames, probes, mappings -/

/-- Appends a frame number to a die's free list (R358). -/
def State.addFrame (s : State) (d n : Nat) (frame : Nat) : State :=
  let tail := s.reg (flTail d n)
  let at_ := physKey d (bitsOf (s.reg (flBase d n)) 0 24 * 2 ^ 16 + 4 * (tail.toNat % 2 ^ 22))
  ({ s with mem := Memory.setN s.mem at_ 4 frame }).setReg (flTail d n) (tail + 1)

/-- A frame of n bytes set to zeros, without marks (R115). -/
def State.zeroFrame (s : State) (key n : Nat) : State :=
  { s with mem := Memory.clear s.mem key n, memPsn := s.memPsn.filter fun k => !(decide (key / 4 ≤ k) && decide (k < (key + n) / 4))
           slices := s.slices.filter fun l => !(decide (key ≤ l.key) && decide (l.key < key + n)) }

/-- FRAME_ALLOCATION (R115, R403): once an access has come to a page without a frame. -/
def execFrameAllocation (asid va : Nat) (s : State) : Out :=
  .next (match s.place asid va with
    | .alloc ca cva =>
      match s.walk ca cva with
      | none => s
      | some e =>
        let d := homeDie cva
        let n := if e.lg then 1 else 0
        let head := s.reg (flHead d n)
        if !s.frameWant.contains (ca, e.base) then s
        else if head = s.reg (flTail d n) then
          if s.frameLogged.contains (ca, e.base) then s
          else ({ s with frameLogged := (ca, e.base) :: s.frameLogged }).logMem d
            (recordWords 10 0 ca 0 (BitVec.ofNat 32 (d * 2 ^ 20)) e.base (BitVec.ofNat 32 n) 0)
        else
          let frame := (Memory.word s.mem (physKey d (bitsOf (s.reg (flBase d n)) 0 24 * 2 ^ 16 + 4 * (head.toNat % 2 ^ 22)))).toNat % 2 ^ 24
          let s := (s.setReg (flHead d n) (head + 1)).zeroFrame (physKey d (frame * 2 ^ 16)) (if e.lg then 2 ^ 21 else 2 ^ 16)
          let m := Memory.setN s.mem (e.key + 4) 4 (setBits e.w1 0 24 frame).toNat
          { s with mem := Memory.setN m e.key 4 (setBits e.w0 24 1 0).toNat
                   frameLogged := s.frameLogged.filter fun p => p != (ca, e.base)
                   frameWant := s.frameWant.filter fun p => p != (ca, e.base) }
    | _ => s)

/-- A probe's word 0 enters a core's buffer, and the warps that wait for it go on (R116). -/
def State.installProbe (s : State) (core asid va : Nat) (w0 : Word) : State :=
  let lg := w0.getLsbD 31 && w0.getLsbD 27
  let e : AcbEntry := { asid := asid, page := if lg then va / 2 ^ 21 * 32 else va / 2 ^ 16, lg := lg, word0 := w0 }
  let wake := fun (w : Warp) => match w.wait with
    | .probe a v => if e.covers a v && ((s.wgs[w.wg]?).map Workgroup.core) == some core then { w with wait := .none } else w
    | _ => w
  let s := s.modCore core fun c => { c with acb := acbInstall c.acb e }
  { s with warps := s.warps.map wake }

/-- ACB_PROBE_REPLY (R116, R401, R421): the reply comes once any frame is there; an alias of another package's page that has no
route counts as not mapped. -/
def execAcbProbeReply (core asid va : Nat) (s : State) : Out :=
  .next (match s.place asid va with
    | .alloc _ _ => s.wantFrame asid va
    | .here _ _ v => if s.linkHeld (coreDie core) (homeDie va) || s.linkHeld (homeDie va) (homeDie v) then s
      else if s.cutOff (coreDie core) (homeDie va) || s.cutOff (homeDie va) (homeDie v) then s.installProbe core asid va noPage
      else s.installProbe core asid va (s.probeWord asid va)
    | .foreign chip _ _ => match if s.cutOff (coreDie core) (homeDie va) || (s.die (homeDie va)).isolated then Route.unreachable else s.route chip with
      | .unreachable => s.installProbe core asid va noPage
      | .waits _ => s
      | _ => ({ s with stamp := s.stamp + 1 }).installProbe core asid va (s.probeWord asid va)
    | _ => s.installProbe core asid va (s.probeWord asid va))

/-- Whether an address lies in a page of n bytes. -/
def inPage (base n va : Nat) : Bool := decide (base ≤ va) && decide (va < base + n)

end Sys2Proof.Machine
end

