-- ==== Sys2Proof/Machine/Braid.lean ====
section
/-! DEFINITION. The affine pair, its composition and the scan of one channel (R101 to R105, R412). -/

namespace Sys2Proof.Machine

open Sys2Proof

/-- A NaN as the canonical NaN (R87). -/
def canon32 (x : Word) : Word := if isNan32 x then nan32 else x

/-- Whether a word lies in Snap's zero domain: magnitude below 2^-126 (R102). -/
def inSnapZero (x : Word) : Bool := bitsOf x 23 8 == 0

/-- Snap (R102). -/
def snap (x : Word) : Word := if inSnapZero x then 0 else canon32 x

/-- A gain product followed by Snap, with the flag rule of R103. -/
def gainProduct (a b : Word) : Flagged :=
  let (r, f) := fmulW a b
  if inSnapZero r then (0, 0) else (r, f)

/-- The braid's fused sum RoundNE(a × b + c) (R103, R105): a zero sum is +0, and 0 × ∞ sets NV whatever c is, as R367 says of y0 where O(t) is −0
and where G(t) is ±∞ (notes/assumptions/90.md). -/
def braidFma (a b c : Word) : Flagged :=
  match (f32 a).mul (f32 b) with
  | (_, true) => roundOp (.nan, true)
  | (p, false) => match p.add (f32 c) with
    | (.fin _ 0 e, f) => roundOp (.fin false 0 e, f)
    | r => roundOp r

/-- Compose(p2, p1) (R103): gain, offset, flags. -/
def compose (p2 p1 : Word × Word) : (Word × Word) × Word :=
  let (g, f) := gainProduct p2.1 p1.1
  let (o, h) := braidFma p2.1 p1.2 p2.2
  ((g, o), f ||| h)

/-- One level of the Sklansky tree (R104) on the prefixes left by the level before. -/
def scanLevel (lv : Nat) (p : List (Word × Word)) : List (Word × Word) × Word :=
  let r := (List.range 32).map fun t =>
    if t / 2 ^ lv % 2 = 1 then compose (p.getD t (0, 0)) (p.getD (t - t % 2 ^ (lv + 1) + 2 ^ lv - 1) (0, 0))
    else (p.getD t (0, 0), 0)
  (r.map Prod.fst, r.foldl (fun f x => f ||| x.2) 0)

/-- ScanPrefix (R104): the 32 prefix pairs and the flags. -/
def scanPrefix (g o : Nat → Word) : List (Word × Word) × Word :=
  (List.range 5).foldl (fun r lv =>
    let (p, f) := scanLevel lv r.1
    (p, r.2 ||| f)) ((List.range 32).map fun t => (snap (g t), canon32 (o t)), 0)

/-- A carry channel: state, cumulative gain, horizon (R69). -/
structure Channel where
  h   : Word
  gc  : Word
  hor : Bool
  deriving DecidableEq, Repr

/-- ScanChunk (R105): the prefix gains, the states y, the new channel, the flags. -/
def scanChunk (g o : Nat → Word) (c : Channel) : List Word × List Word × Channel × Word :=
  let (p, f) := scanPrefix g o
  let ys := p.map fun x => if x.1 = 0 then (x.2, 0) else braidFma x.1 c.h x.2
  let (gc, fg) := gainProduct ((p.getD 31 (0, 0)).1) c.gc
  (p.map Prod.fst, ys.map Prod.fst,
    { h := ((ys.getD 31 (0, 0)).1), gc := gc, hor := c.hor || gc == 0 },
    ys.foldl (fun f y => f ||| y.2) (f ||| fg))

end Sys2Proof.Machine
end

