-- ==== Sys2Proof/Machine/Messages.lean ====
section
/-! DEFINITION. Targets of messages (R234), the instances of scopes (R142), the gang map (R326), the checks and records of discarded
messages (R407, R408). -/

namespace Sys2Proof.Machine

open Sys2Proof

/-- The fields of TGT and TGTHI (R234). -/
def tgtWarp (t : Word) : Nat := bitsOf t 10 6
def tgtDie (t : Word) : Nat := bitsOf t 8 2
def tgtCl (t : Word) : Nat := bitsOf t 4 4
def tgtWg (t : Word) : Nat := bitsOf t 0 4
def tgtGrid (h : Word) : Nat := bitsOf h 0 20
def tgtTag (h : Word) : Nat := bitsOf h 20 8
def tgtScope (h : Word) : Nat := bitsOf h 28 3

/-- The workgroup of a grid at a logical position. -/
def State.findWg (s : State) (gi die cl wg : Nat) : Option Nat :=
  s.wgs.findIdx? fun g => g.grid == gi && g.die == die && g.cl == cl && g.wg == wg

/-- Whether two cores, and for scope wg two workgroups, share an instance of a scope (R8, R142). -/
def sameInstance (sc : Scope) (k1 g1 k2 g2 : Nat) : Bool :=
  match sc with
  | .wg => g1 == g2
  | .cl => coreCl k1 == coreCl k2
  | .die => coreDie k1 == coreDie k2
  | .pkg | .sys => true

/-- The words that a message's kind requires to be 0 (R234): for a splice SCOPE, for an active message WARP and TAG; its SCOPE must
lie in 1 to 5. -/
def badWords (active : Bool) (t h : Word) : Bool :=
  bitsOf t 16 16 != 0 || h.getLsbD 31 ||
    (if active then tgtWarp t != 0 || tgtTag h != 0 || tgtScope h == 0 || decide (5 < tgtScope h) else tgtScope h != 0)

/-- Reason 1 of R407 against a grid's counts. -/
def reason1 (active : Bool) (t h : Word) (r : Record) : Bool :=
  badWords active t h || decide (r.nwarp ≤ tgtWarp t) || decide (r.ndie ≤ tgtDie t) || decide (r.ncl ≤ tgtCl t) || decide (r.nwg ≤ tgtWg t)

/-- The gang map's address of an ASID (R326, R356). -/
def State.gangMap (s : State) (asid : Nat) : Nat := Memory.getN s.mem (physKey 0 (s.asidTable + 64 * asid + 0x20)) 8 % 2 ^ 52

/-- What reading a gang-map entry comes to. -/
inductive GangEntry where
  | chip (n : Nat)
  | wait
  | unreadable
  deriving DecidableEq, Repr

/-- The chip that runs a %grid (R326): the entry kept, else the one read from the map at sys scope. -/
def State.gangChip (s : State) (asid grid : Nat) : GangEntry :=
  match s.gangs.find? fun g => g.1 == asid && g.2.1 == grid with
  | some g => .chip g.2.2
  | none => match s.devRead asid (s.gangMap asid + 4 * grid) 4 with
    | .got bs false => .chip (bytesNat bs % 2 ^ 20)
    | .got _ true | .fail => .unreadable
    | .wait | .ask => .wait

/-- The read of a gang-map entry that is not kept goes on. -/
def State.gangRead (s : State) (asid grid : Nat) : State :=
  if s.gangs.any fun g => g.1 == asid && g.2.1 == grid then s else s.devReadOn asid (s.gangMap asid + 4 * grid) 4

/-- The entry that has been read is kept (R326). -/
def State.keepGang (s : State) (asid grid chip : Nat) : State :=
  if s.gangs.any fun g => g.1 == asid && g.2.1 == grid then s else { s with gangs := (asid, grid, chip) :: s.gangs }

/-- The placed, not yet completed grid of an ASID with a %grid; of several the one placed first (R326). -/
def State.placedGrid (s : State) (asid grid : Nat) : Option Nat :=
  let seqOf := fun gi => ((s.wgs.find? fun w => w.grid == gi).map Workgroup.seq).getD 0
  let cs := (List.range s.grids.length).filter fun gi => match s.grids[gi]? with
    | some g => g.asid == asid && g.lrec.gridNo == grid && (g.status == .placed || g.status == .released)
    | none => false
  cs.foldl (fun b gi => match b with
    | some x => if seqOf gi < seqOf x then some gi else b
    | none => some gi) none

/-- A SPLICE or AMSG record (R400): on the die where the discard is detected, about the sender. -/
def State.logDiscard (s : State) (d : Nat) (active : Bool) (warp : Option Nat) (asid : Nat) (t h : Word) (reason : Nat) : State :=
  let about : Nat × Word := match warp with
    | none => (0, 0)
    | some i => match s.warps[i]? with
      | none => (0, 0)
      | some w => match s.wgs[w.wg]? with
        | none => (0, 0)
        | some g => (g.seq, match s.grids[g.grid]? with
          | some gr => whereWord g.core (w.index gr.lrec) w.slot
          | none => 0)
  s.logMem d (recordWords (if active then 7 else 6) 0 asid about.1 about.2 h.toNat (BitVec.ofNat 32 reason) t)

def MsgBody.isActive : MsgBody → Bool
  | .active .. => true
  | .splice .. => false

/-- The AMSEND of a message leaves its key's set; the sender of one of another package is told, so that its AMSEND or its splice store entry
ends (R235, R251, R408). -/
def State.ackMsg (s : State) (x : Msg) : State :=
  match x.op, x.chip with
  | some i, none => s.completeOp i
  | some i, some c => match s.route c with
    | .group g => s.send g c (.reply (accTag (if x.body.isActive then i else spliceOp + i) 0) 0 0 0 0)
    | _ => s
  | none, _ => s

/-- A message is discarded (R407, R408): the AMSEND leaves its key's set. -/
def State.discardMsg (s : State) (m d reason : Nat) : State :=
  match s.msgs[m]? with
  | none => s
  | some x =>
    let s := s.logDiscard d x.body.isActive x.warp x.asid x.tgt x.tgthi reason
    (s.modMsg m fun x => { x with stage := .gone }).ackMsg x

/-- The reason that the sender's die finds (R407): 1 and 4 for its own grid, 2 for a GRID at or above %ngrid. -/
def State.senderReason (s : State) (c : Ctx) (active : Bool) (t h : Word) (sc : Scope) : Option Nat :=
  if tgtGrid h = c.gr.lrec.gridNo then
    if reason1 active t h c.gr.lrec then some 1
    else
      match s.findWg c.g.grid (tgtDie t) (tgtCl t) (tgtWg t) with
      | some j => match s.wgs[j]? with
        | some g => if sameInstance sc c.g.core c.w.wg g.core j then none else some 4
        | none => none
      | none => none
  else if c.gr.lrec.ngrid ≤ tgtGrid h then some 2
  else none

/-- The splices a die has sent that are in no receive queue yet (R235). -/
def State.spliceStore (s : State) (d : Nat) : Nat :=
  (s.msgs.filter fun m => m.die == d && !m.body.isActive && m.warp.isSome && (m.stage == .held || m.stage == .sent || m.stage == .away)).length

end Sys2Proof.Machine
end

