-- ==== Sys2Proof/Machine/KeyOps.lean ====
section
/-! DEFINITION. Changing keys, waiting on keys, splices, KSTEAL (R228 to R238). -/

namespace Sys2Proof.Machine

open Sys2Proof

/-- A key's set replaced, or the stall of R140 when it would exceed 4,095 members. -/
def State.putKey (s : State) (i : Instr) (d : Nat) (set : List Member) : State :=
  if d ≠ 15 ∧ 4095 < setCount set then s.waitFor s.cur (.keyLimit set 0)
  else s.modWarp s.cur fun w => (w.setKey d set).next i

/-- KFORK (R137, R230). -/
def execKfork (d a : Fin 16) (s : State) : Out :=
  issue (.kfork d a) s fun c => s.putKey (.kfork d a) d (c.w.keySet a)

/-- KJOIN (R137, R230). -/
def execKjoin (d a b : Fin 16) (s : State) : Out :=
  issue (.kjoin d a b) s fun c => s.putKey (.kjoin d a b) d (joinSets (c.w.keySet a) (c.w.keySet b))

/-- KREL on an entry (R133). -/
def KeyEntry.release (e : KeyEntry) : KeyEntry :=
  match e.st with
  | .opened => if e.set.isEmpty then { e with st := .idle } else { e with st := .closed }
  | _ => e

/-- KREL (R137, R230). -/
def execKrel (d : Fin 16) (s : State) : Out :=
  retire (.krel d) s fun c => { c.w with keys := c.w.keys.modify d KeyEntry.release }

/-- A wait that lasts until every member of a snapshot has performed at a scope; the stores it awaits drain (R123, R138). On its end
the die drops its remote lines at pkg or sys (R136). -/
def State.awaitSet (s : State) (i : Instr) (c : Ctx) (ms : List Member) (sc : Scope) (w : Wait) (drops : Bool) : State :=
  if ms.all fun m => s.memberAt (coreDie c.g.core) m sc then
    let s := if drops && decide (4 ≤ sc.code) then (s.drainCore c.g.core).dropRemote (coreDie c.g.core) else s
    s.modWarp s.cur fun w => w.next i
  else (s.drainMembers ms).waitFor s.cur w

/-- A member's own scope as a code: an operation's scope, or the wider scope a splice carried (R142). -/
def State.memberScope (s : State) (m : Member) : Nat :=
  let via := (m.via.map Scope.code).getD 0
  match m.chip with
  | some _ => via
  | none => max via (((s.ops[m.op]?).map fun o => o.sc.code).getD 0)

/-- Whether a member has performed at its own scope. -/
def State.memberDone (s : State) (d : Nat) (m : Member) : Bool :=
  match Scope.ofCode (s.memberScope m) with
  | some sc => s.memberAt d m sc
  | none => true

/-- The members of a set not performed at their own scopes. -/
def State.pendingOf (s : State) (d : Nat) (ms : List Member) : List Member := ms.filter fun m => !s.memberDone d m

/-- Whether a set holds an unperformed operation of scope die, pkg or sys (R55). -/
def State.farPending (s : State) (d : Nat) (ms : List Member) : Bool := (s.pendingOf d ms).any fun m => decide (3 ≤ s.memberScope m)

/-- KWAIT (R138, R231); k15 retires without waiting. -/
def execKwait (a : Fin 16) (sc : Scope) (s : State) : Out :=
  issue (.kwait a sc) s fun c => s.awaitSet (.kwait a sc) c (c.w.keySet a) sc (.kwait a sc (s.farPending (coreDie c.g.core) (c.w.keySet a))) (a.val != 15)

/-- The members of k0 to k14. -/
def Warp.allSets (w : Warp) : List Member := (List.range 15).flatMap fun k => w.keySet k

/-- KALL (R139, R232). -/
def execKall (sc : Scope) (s : State) : Out :=
  issue (.kall sc) s fun c => (s.drainCore c.g.core).awaitSet (.kall sc) c c.w.allSets sc (.kall sc) true

/-- The key status word (R68). -/
def State.keyStatus (s : State) (d : Nat) (w : Warp) (k : Nat) : Word :=
  if k = 15 then 0
  else
    let e := w.keys.getD k {}
    let pend := s.pendingOf d e.set
    let widest := pend.foldl (fun n m => max n (s.memberScope m)) 0
    let st := match e.st with
      | .idle => 0
      | .opened => 1
      | .closed => 2
    BitVec.ofNat 32 (st * 2 ^ 30 + widest * 2 ^ 27 + (decide (3 ≤ widest)).toNat * 2 ^ 26 + min 4095 pend.length)

/-- KQRY (R233). -/
def execKqry (d : Fin 64) (a : Fin 16) (s : State) : Out :=
  retire (.kqry d a) s fun c => c.w.setS d (s.keyStatus (coreDie c.g.core) c.w a) false

/-! ### Splices (R141, R235 to R237) -/

/-- A set as a splice carries it: each member with the wider of the scopes (R142). -/
def spliceSet (ms : List Member) (sc : Scope) : List Member :=
  ms.map fun m => { m with via := some (match m.via with
    | some v => if v.code < sc.code then sc else v
    | none => sc) }

/-- KSEND (R235): the snapshot is sent as one splice; the sender's die may discard it at once (R407). -/
def execKsend (a : Fin 16) (b : Fin 64) (sc : Scope) (s : State) : Out :=
  issue (.ksend a b sc) s fun c =>
    let d := coreDie c.g.core
    if 64 ≤ s.spliceStore d then s.waitFor s.cur .spliceStore
    else
      let t := c.w.sreg b
      let h := c.w.sreg (b.val + 1)
      let s1 := match s.senderReason c false t h sc with
        | some r => s.logDiscard d false (some s.cur) c.gr.asid t h r
        | none =>
          let m : Msg := { body := .splice (spliceSet (c.w.keySet a) sc) (BitVec.ofNat 8 (tgtTag h)), op := none, warp := some s.cur,
                           asid := c.gr.asid, die := d, core := c.g.core, tgt := t, tgthi := h, sc := sc, at_ := 2 * s.ops.length }
          { s with msgs := s.msgs ++ [m] }
      s1.modWarp s.cur fun w => w.next (.ksend a b sc)

/-- The candidate mask of KRECV (R237). -/
def recvMask (w : Word) : Nat := if w.toNat % 2 ^ 15 = 0 then 0x7FFF else w.toNat % 2 ^ 15

/-- The lowest candidate key that is IDLE. -/
def Warp.idleKey (w : Warp) (mask : Nat) : Option Nat :=
  (List.range 15).find? fun j => mask / 2 ^ j % 2 == 1 && (w.keys.getD j {}).st == .idle

/-- The receipt word (R237). -/
def receipt (j : Nat) (q : Splice) : Word := BitVec.ofNat 32 (q.sc.code * 2 ^ 24 + q.tag.toNat * 2 ^ 16 + j)

/-- KRECV and KRECV.try (R237). -/
def State.krecv (s : State) (i : Instr) (c : Ctx) (d a : Nat) (try_ : Bool) : State :=
  match c.w.recvq, c.w.idleKey (recvMask (c.w.sreg a)) with
  | q :: rest, some j =>
    if 4095 < setCount q.set then s.waitFor s.cur (.keyLimit q.set 0)
    else s.modWarp s.cur fun w => (({ w with recvq := rest }).setKey j q.set |>.setS d (receipt j q) false).next i
  | _, _ => if try_ then s.modWarp s.cur fun w => (w.setS d 0x80000000 false).next i else s.waitFor s.cur .krecv

def execKrecv (d a : Fin 64) (s : State) : Out := issue (.krecv d a) s fun c => s.krecv (.krecv d a) c d a false
def execKrecvTry (d a : Fin 64) (s : State) : Out := issue (.krecvTry d a) s fun c => s.krecv (.krecvTry d a) c d a true

/-! ### KSTEAL (R238, R409) -/

/-- The victim of a TGT word in the issuer's grid, or the reason of R409. -/
def State.victim (s : State) (c : Ctx) (t : Word) (sc : Scope) : Except Nat Nat :=
  let r := c.gr.lrec
  if bitsOf t 16 16 ≠ 0 ∨ r.ndie ≤ tgtDie t ∨ r.ncl ≤ tgtCl t ∨ r.nwg ≤ tgtWg t then .error 1
  else
    match s.findWg c.g.grid (tgtDie t) (tgtCl t) (tgtWg t) with
    | none => .error 1
    | some j => match s.wgs[j]? with
      | none => .error 1
      | some g => if sameInstance sc c.g.core c.w.wg g.core j then .ok j else .error 4

/-- KSTEAL (R238): the promotion is one operation of the produce key. -/
def execKsteal (d : Fin 16) (a : Fin 64) (sc : Scope) (s : State) : Out :=
  issue (.ksteal d a sc) s fun c =>
    match c.w.produceWait d with
    | some x => s.waitFor s.cur x
    | none =>
      let t := c.w.sreg a
      match s.victim c t sc with
      | .ok j => (s.issueOp s.cur c.w c.g.core (.steal (some j) []) sc d 15 []).1.modWarp s.cur fun w => w.next (.ksteal d a sc)
      | .error r =>
        let (s1, i) := s.issueOp s.cur c.w c.g.core (.steal none []) sc d 15 []
        let s1 := s1.modOp i fun o => { o with status := .performed }
        let s1 := s1.logMemWarp c.w 8 0 (BitVec.ofNat 32 r) t
        s1.modWarp s.cur fun w => w.next (.ksteal d a sc)

/-- The global lines of an L1 invalidated, private lines kept (R124). -/
def State.dropL1Globals (s : State) (k : Nat) : State := s.modCore k fun c => { c with l1 := c.l1.filter Line.isPriv }

/-- The unfinished global stores that have performed at wg scope on a core, of whatever workgroup (R124, R153). -/
def State.storesOf (s : State) (k : Nat) : List Nat :=
  (List.range s.ops.length).filter fun i => match s.ops[i]? with
    | some o => o.core == k && o.status != .complete && (match o.kind with
      | .mem .store _ _ _ _ => (o.acc.any fun a => a.space == .global) && decide (1 ≤ s.opLevel i)
      | _ => false)
    | none => false

/-- STEAL_PROMOTION (R124, R238): the promotion reaches its core. -/
def execStealPromotion (op : Nat) (s : State) : Out :=
  .next (match s.ops[op]? with
    | some o => match o.kind, o.status with
      | .steal (some v) _, .issued =>
        match s.wgs[v]? with
        | none => s
        | some g =>
          let stores := if g.started then s.storesOf g.core else []
          let s1 := if g.started && g.status != .evicted then (s.drainCore g.core).dropL1Globals g.core else s
          s1.modOp op fun o => { o with kind := .steal (some v) stores, status := .started }
      | _, _ => s
    | none => s)

end Sys2Proof.Machine
end

