-- ==== Sys2Proof/Machine/Sync.lean ====
section
/-! DEFINITION. Barriers (R239 to R244), pool membership (R245 to R247), changing role (R52 to R54, R257). -/

namespace Sys2Proof.Machine

open Sys2Proof

/-! ### Barriers -/

/-- One arrival (R240), by a warp with its %warp or by a copy command or handler warp (none); MEMBERS = 0 records nothing. -/
def Barrier.arrive (b : Barrier) (ms : List Member) (leave : Bool) (who : Option Nat) : Barrier :=
  if b.members = 0 then b
  else
    let leaves := if leave then b.leaves + 1 else b.leaves
    let cur := joinSets b.cur ms
    if b.arrived + 1 = b.members then
      { members := b.members - leaves, arrived := 0, phase := (b.phase + 1) % 65536, leaves := 0, cur := [], last := cur }
    else
      { b with arrived := b.arrived + 1, leaves := leaves, cur := cur
               byWarp := match who with
                 | some w => w :: b.byWarp
                 | none => b.byWarp
               others := if who.isNone then b.others + 1 else b.others }

def Workgroup.bar (g : Workgroup) (n : Nat) : Barrier := g.bars.getD n {}

/-- A barrier of a workgroup changed. -/
def State.modBar (s : State) (wg n : Nat) (f : Barrier → Barrier) : State :=
  s.modWg wg fun (g : Workgroup) => { g with bars := g.bars.modify n f }

/-- BINIT (R239): the sets of both phases become empty. -/
def execBinit (d : Fin 16) (a : Fin 64) (s : State) : Out :=
  issue (.binit d a) s fun c =>
    (s.modBar c.w.wg d fun _ => { members := bitsOf (c.w.sreg a) 0 8 }).modWarp s.cur fun w => w.next (.binit d a)

/-- BARR and BARR.leave (R240): at a barrier with MEMBERS = 0 the barrier-state trap 0x02 (R376, R377). -/
def State.barr (s : State) (i : Instr) (c : Ctx) (d a : Nat) (leave : Bool) : State :=
  if (c.g.bar d).members = 0 then s.takeTrap s.cur 0x02 c.w.pc (pcAdd c.w.pc 4)
  else
    let who := if c.w.handler.isSome then none else some c.w.num
    (s.modBar c.w.wg d fun b => b.arrive (c.w.keySet a) leave who).modWarp s.cur fun w => w.next i

def execBarr (d a : Fin 16) (s : State) : Out := issue (.barr d a) s fun c => s.barr (.barr d a) c d a false
def execBarrLeave (d a : Fin 16) (s : State) : Out := issue (.barrLeave d a) s fun c => s.barr (.barrLeave d a) c d a true

/-- BWAIT (R242): the produce key receives the set of the last completed phase. -/
def execBwait (d a : Fin 16) (par : Bool) (s : State) : Out :=
  issue (.bwait d a par) s fun c =>
    let b := c.g.bar d
    if (b.phase % 2 == 1) != par then s.waitFor s.cur (.bwait d par)
    else s.putKey (.bwait d a par) a (if b.phase = 0 then [] else b.last)

/-- The barrier word (R73). -/
def Barrier.word (b : Barrier) : Word := BitVec.ofNat 32 (b.phase * 2 ^ 16 + b.arrived * 2 ^ 8 + b.members)

/-- BQRY (R243). -/
def execBqry (d : Fin 64) (a : Fin 16) (s : State) : Out :=
  retire (.bqry d a) s fun c => c.w.setS d (c.g.bar a).word false

/-! ### Pool membership -/

/-- A pool that gains a member; its counters count from the moment it last had none (R247). -/
def Pool.enrol (p : Pool) (m : PoolMember) : Pool :=
  if p.members.isEmpty then { members := [m], timeouts := 0, discards := 0 } else { p with members := p.members ++ [m] }

/-- Whether MCJOIN's buffer word is bad (R246). -/
def badBuffer (w : Word) (r : Record) : Bool :=
  bitsOf w 30 2 != 0 || bitsOf w 14 2 != 0 || bitsOf w 16 14 == 0 || decide (r.scr * 65536 < (bitsOf w 0 14 + bitsOf w 16 14) * 128)

/-- MCJOIN (R246). -/
def execMcjoin (d a b : Fin 64) (pool : Fin 16) (s : State) : Out :=
  issue (.mcjoin d a b pool) s fun c =>
    let p := c.gr.pool pool
    let n := p.members.length
    let buf := c.w.sreg a
    let result := fun (s : State) (v : Nat) => s.modWarp s.cur fun w => (w.setS d (BitVec.ofNat 32 v) false).next (.mcjoin d a b pool)
    if c.gr.isMember pool c.w.wg then result s (2 ^ 29 + n)
    else if badBuffer buf c.gr.lrec then result s (2 ^ 30 + n)
    else if 64 ≤ n then result s (2 ^ 31 + n)
    else
      let t := bitsOf (c.w.sreg b) 0 20
      let m : PoolMember := { wg := c.w.wg, base := bitsOf buf 0 14, size := bitsOf buf 16 14, tmo := if t = 0 then 1048575 else t }
      result (s.modPool c.g.grid pool fun p => p.enrol m) (n + 1)

/-- MCLEAVE (R247): the withdrawal of R250 first, then the pool status word. -/
def execMcleave (d : Fin 64) (pool : Fin 16) (s : State) : Out :=
  issue (.mcleave d pool) s fun c =>
    let member := c.gr.isMember pool c.w.wg
    let s1 := if member then s.withdraw c.w.wg c.g.grid pool else s
    let p := ((s1.grids[c.g.grid]?).map fun g => g.pool pool).getD {}
    let v := (!member).toNat * 2 ^ 31 + p.timeouts * 2 ^ 16 + p.discards * 2 ^ 8 + p.members.length
    s1.modWarp s.cur fun w => (w.setS d (BitVec.ofNat 32 v) false).next (.mcleave d pool)

/-! ### ROLE -/

/-- Free granules of a workgroup's register region (R53, R76): those freed in this clk are not free yet. -/
def State.freeGranules (s : State) (wi : Nat) (r : Record) : Nat :=
  64 * r.reg - ((s.warps.filter fun w => w.wg == wi && w.status == .running).map Warp.allot).sum - ((s.wgs[wi]?).map Workgroup.freed).getD 0

/-- A warp takes a descriptor's allotment: what a shrink gives up is free from the next clk (R53). -/
def State.takeRole (s : State) (wi : Nat) (w : Warp) (f : Warp → Warp) (n : Nat) : State :=
  (s.modWg w.wg fun (g : Workgroup) => { g with freed := g.freed + (w.allot - n) }).modWarp wi f

/-- A ROLE that succeeds (R52): registers below both allotments are kept, new ones read zero. -/
def Warp.roleTo (w : Warp) (d : Desc) (n pd : Nat) : Warp :=
  let keep := w.v.take (8 * d.allot)
  let w := { w with role := d.role, cls := d.cls, desc := n, allot := d.allot, pc := d.entry, wait := .none
                    v := keep ++ List.replicate (8 * d.allot - keep.length) LaneReg.zero }
  w.setPred pd (BitVec.allOnes 32) fun _ => true

/-- ROLE (R52, R53, R257). -/
def execRole (d : Fin 8) (n : Fin 8) (s : State) : Out :=
  issue (.role d n) s fun c =>
    if c.w.emask ≠ BitVec.allOnes 32 ∨ c.w.sdepth ≠ 0 then s.takeTrap s.cur 0x01 c.w.pc (pcAdd c.w.pc 4)
    else
      match c.gr.lrec.descs[n.val]? with
      | none => s
      | some ds =>
        if ds.allot ≤ c.w.allot ∨ (c.g.growQ.isEmpty ∧ ds.allot - c.w.allot ≤ s.freeGranules c.w.wg c.gr.lrec) then
          s.takeRole s.cur c.w (fun w => w.roleTo ds n d) ds.allot
        else if c.g.growQ.any fun q => q.warp == s.cur then s.waitFor s.cur .grow
        else
          (s.modWg c.w.wg fun (g : Workgroup) => { g with growQ := g.growQ ++ [{ warp := s.cur, desc := n, pd := d }] }).waitFor s.cur .grow

/-- The oldest waiting grow of a workgroup, with its warp and descriptor. -/
def State.oldestGrow (s : State) (wg : Nat) : Option (GrowReq × Warp × Desc × Record) :=
  match s.wgs[wg]? with
  | none => none
  | some g => match g.growQ, s.grids[g.grid]? with
    | q :: _, some gr => match s.warps[q.warp]?, gr.lrec.descs[q.desc]? with
      | some w, some d => some (q, w, d, gr.lrec)
      | _, _ => none
    | _, _ => none

/-- The oldest request leaves the queue. -/
def State.popGrow (s : State) (wg : Nat) : State := s.modWg wg fun (g : Workgroup) => { g with growQ := g.growQ.drop 1 }

/-- GROW_GRANT (R53). -/
def execGrowGrant (wg : Nat) (s : State) : Out :=
  .next (match s.oldestGrow wg with
    | some (q, w, d, r) =>
      if d.allot - w.allot ≤ s.freeGranules wg r then (s.popGrow wg).modWarp q.warp fun w => w.roleTo d q.desc q.pd else s
    | none => s)

/-- GROW_FAIL (R54): every live warp of the workgroup waits on a grow, and the oldest cannot be granted. -/
def execGrowFail (wg : Nat) (s : State) : Out :=
  .next (match s.oldestGrow wg with
    | some (q, w, d, r) =>
      let waiting := fun i => match s.wgs[wg]? with
        | some g => g.growQ.any fun x => x.warp == i
        | none => false
      let all := (List.range s.warps.length).all fun i => match s.warps[i]? with
        | some x => x.wg != wg || x.status != .running || waiting i
        | none => true
      if all && decide (s.freeGranules wg r < d.allot - w.allot) then
        (s.popGrow wg).modWarp q.warp fun (w : Warp) =>
          ({ w with pc := pcAdd w.pc 4, wait := .none }).setPred q.pd (BitVec.allOnes 32) fun _ => false
      else s
    | none => s)

end Sys2Proof.Machine
end

