-- ==== Sys2Proof/Machine/Engine.lean ====
section
/-! DEFINITION. Matrix and scan commands: their issue (R260, R261), the tile scoreboard (R263, R413), refusals (R264), and what each
command does (R265 to R276, R396). -/

namespace Sys2Proof.Machine

open Sys2Proof

/-! ### What a command names, and the tile configuration -/

/-- A thing the tile scoreboard orders: a tile slot, a B slot, a carry register of the issuing warp. -/
inductive Unit3 where
  | tile (n : Nat) | slot (n : Nat) | carry (n : Nat)
  deriving DecidableEq, Repr

/-- What a command reads and what it writes (R263). -/
def Cmd.uses (c : Cmd) : List Unit3 × List Unit3 :=
  match c with
  | .tcfg t _ => ([], [.tile t])
  | .tlda t _ _ _ => ([], [.tile t])
  | .tldb m _ _ _ => ([], [.slot m])
  | .mma d a m mode _ => ((if mode.getLsbD 0 then [] else [.tile d]) ++ [.tile a, .slot m], [.tile d])
  | .tzero t => ([], [.tile t])
  | .tst t _ _ => ([.tile t], [])
  | .tcvt d src _ _ => ([.tile src], [.tile d])
  | .ascan g o k => ([.tile g, .tile o, .carry k], [.tile g, .tile o, .carry k])
  | .cld k _ => ([], [.carry k])
  | .cst k _ => ([.carry k], [])
  | .copy _ _ => ([], [])

def Cmd.isCopy : Cmd → Bool
  | .copy _ _ => true
  | _ => false

/-- Whether two lists of units meet; carry registers only within a warp. -/
def unitsMeet (a b : List Unit3) (sameWarp : Bool) : Bool :=
  a.any fun u => b.contains u && (match u with
    | .carry _ => sameWarp
    | _ => true)

/-- Whether TCFG stands on one side of two commands that share a tile: it acts once every earlier one is done, and later ones use the new
configuration (R267). -/
def Cmd.reconfigures (x y : Cmd) (sameWarp : Bool) : Bool :=
  match x, y with
  | .tcfg .., _ | _, .tcfg .. => unitsMeet (x.uses.1 ++ x.uses.2) (y.uses.1 ++ y.uses.2) sameWarp
  | _, _ => false

/-- Whether a later command y may not begin while an earlier one x is unfinished (R263): it reads what x writes, or writes what x, not begun,
has still to read, or TCFG separates them. -/
def Cmd.conflicts (x y : Cmd) (begun sameWarp : Bool) : Bool :=
  unitsMeet x.uses.2 y.uses.1 sameWarp || (!begun && unitsMeet x.uses.1 y.uses.2 sameWarp) || x.reconfigures y sameWarp

/-- Whether a command writes all of what it writes to: an earlier command's writes to it then leave no trace (R263). -/
def Cmd.covers : Cmd → Bool
  | .tzero _ | .tldb .. | .cld .. => true
  | _ => false

/-- Whether a later command y may not complete before an earlier one x: both write a unit, of which y writes only a part. -/
def Cmd.endsAfter (x y : Cmd) (sameWarp : Bool) : Bool := !y.covers && unitsMeet x.uses.2 y.uses.2 sameWarp

/-- The tile configuration and occupancy that a command's checks see: (occupied, wide) of tiles, occupied of B slots. -/
structure TileView where
  tiles : List (Bool × Bool)
  slots : List Bool
  deriving DecidableEq, Repr

def TileView.occ (v : TileView) (t : Nat) : Bool := (v.tiles.getD t (false, false)).1
def TileView.wide (v : TileView) (t : Nat) : Bool := (v.tiles.getD t (false, false)).2
def TileView.slotOcc (v : TileView) (m : Nat) : Bool := v.slots.getD m false

/-- RB of a format code with its scale bit (R266). -/
def rowBytes (f : Nat) (scl : Bool) : Nat :=
  match f with
  | 3 | 4 => if scl then 66 else 64
  | 5 => 64
  | 6 => 36
  | _ => 128

/-- A load of operand rows is refused (R269). -/
def badLoad (f : Nat) (scl : Bool) (off : Nat) (pitch : Option Nat) (bytes : Nat) : Bool :=
  let rb := rowBytes f scl
  let p := pitch.getD rb
  f == 0 || decide (6 < f) || decide (bytes < off + 31 * p + rb) || decide (p < rb)
    || ((f == 1 || f == 2) && (off % 2 == 1 || p % 2 == 1))

/-- The format combinations of MMA (R271). -/
def mmaFormats (f : BitVec 16) : Bool :=
  let n := fun x => x == 3 || x == 4 || x == 6
  ((n (fmtA f) && n (fmtB f)) && fmtC f == 0) || (fmtA f == 5 && fmtB f == 5 && fmtC f == 7)
    || (fmtA f == 1 && fmtB f == 1 && fmtC f == 0) || (fmtA f == 2 && fmtB f == 2 && fmtC f == 0)

/-- The columns of an accumulator image (R265). -/
def imageCols (wide : Bool) : Nat := if wide then 64 else 32

/-- Whether a destination format code is an accumulator format. -/
def isAccFmt (f : Nat) : Bool := f == 0 || f == 7

/-- The refusals of R267 to R276 against a configuration. -/
def Cmd.refused (c : Cmd) (v : TileView) (r : Record) : Bool :=
  let bytes := r.scr * 65536
  match c with
  | .tcfg _ w => bitsOf w 1 31 != 0 || (w.getLsbD 0 && decide (r.acc < 2))
  | .tlda t off p f => badLoad (fmtA f) (fmtAscl f) off p bytes || !v.occ t
  | .tldb _ off p f => badLoad (fmtB f) (fmtBscl f) off p bytes
  | .mma d a m mode f => bitsOf mode 2 30 != 0 || (mode.getLsbD 1 && !v.wide d) || a == d || !v.occ a || !v.occ d || !v.slotOcc m
      || !mmaFormats f
  | .tzero _ => false
  | .tst t off p =>
    let row := 4 * imageCols (v.wide t)
    let p := p.getD row
    !v.occ t || off % 4 != 0 || p % 4 != 0 || decide (p < row) || decide (bytes < off + 31 * p + row)
  | .tcvt d src cw f =>
    let sf := bitsOf cw 12 4
    let khi := cw.getLsbD 8
    bitsOf cw 16 16 != 0 || bitsOf cw 9 3 != 0 || !isAccFmt sf || bitsOf cw 0 8 == 0xFF || decide (8 ≤ fmtC f) || src == d
      || (isAccFmt (fmtC f) && v.wide src != v.wide d) || (khi && (v.wide src || isAccFmt (fmtC f))) || !v.occ src || !v.occ d
  | .ascan g o _ => v.wide g || v.wide o || !v.occ g || !v.occ o || g == o
  | .cld _ off | .cst _ off => off % 16 != 0 || decide (bytes < off + 272)
  | .copy _ _ => false

/-- The configuration after a command (R267, R268). -/
def TileView.after (v : TileView) (c : Cmd) (r : Record) : TileView :=
  if c.refused v r then v
  else match c with
    | .tcfg t w => { v with tiles := v.tiles.set t (true, w.getLsbD 0) }
    | .tzero t => if v.occ t then v else { v with tiles := v.tiles.set t (true, false) }
    | .tldb m _ _ _ => { v with slots := v.slots.set m true }
    | _ => v

/-- Whether a command is in its engine: issued or started, and not complete. -/
def OpStatus.live : OpStatus → Bool
  | .issued | .started => true
  | _ => false

/-- The unfinished matrix and scan commands of a workgroup issued before an operation, in the order of their issue. -/
def State.cmdsBefore (s : State) (wg i : Nat) : List (Op × Cmd) :=
  (s.ops.take i).filterMap fun o => match o.kind with
    | .cmd c => if o.wg == wg && o.status.live && !c.isCopy then some (o, c) else none
    | _ => none

/-- What the checks of command i see (R413): the configuration left by every command taken before it. -/
def State.viewBefore (s : State) (g : Workgroup) (wg i : Nat) (r : Record) : TileView :=
  let v : TileView := { tiles := g.tiles.map fun t => (t.occ, t.wide), slots := g.bslots.map BSlot.occ }
  (s.cmdsBefore wg i).foldl (fun v p => v.after p.2 r) v

/-! ### Issue (R260, R261) -/

/-- The commands in a core's matrix queue, or its copy queue. -/
def State.queueLength (s : State) (core : Nat) (copy : Bool) : Nat :=
  (s.ops.filter fun o => match o.kind with
    | .cmd c => o.core == core && o.status.live && c.isCopy == copy
    | .mcld .. => false
    | _ => false).length

/-- A command enters its queue (R261), or stalls while the queue is full or its key takes no member. -/
def State.issueCmd (s : State) (i : Instr) (c : Ctx) (cmd : Cmd) (sc : Scope) (k cons : Nat) : State :=
  match c.w.produceWait k with
  | some x => s.waitFor s.cur x
  | none =>
    if (if cmd.isCopy then 64 else 32) ≤ s.queueLength c.g.core cmd.isCopy then s.waitFor s.cur .queueFull
    else (s.issueOp s.cur c.w c.g.core (.cmd cmd) sc k cons []).1.modWarp s.cur fun w => w.next i

/-- A matrix or scan command: convergence first (R260), scope wg (R262). -/
def matrixCmd (i : Instr) (k c : Fin 16) (f : Ctx → Cmd) (s : State) : Out :=
  issue i s fun x =>
    if x.w.emask ≠ BitVec.allOnes 32 then s.takeTrap s.cur 0x01 x.w.pc (pcAdd x.w.pc i.size)
    else s.issueCmd i x (f x) .wg k c

/-- An optional pitch. -/
def litNat (l : Option Word) : Option Nat := l.map BitVec.toNat

def execTcfg (x : Fin 16) (y : Fin 64) (k c : Fin 16) (s : State) : Out :=
  matrixCmd (.tcfg x y k c) k c (fun t => .tcfg x (t.w.sreg y)) s
def execTlda (x : Fin 16) (y : Fin 64) (k c : Fin 16) (pitch : Option Word) (s : State) : Out :=
  matrixCmd (.tlda x y k c pitch) k c (fun t => .tlda x (t.w.sreg y).toNat (litNat pitch) t.w.fmt) s
def execTldb (x : Fin 64) (y : Fin 64) (k c : Fin 16) (pitch : Option Word) (s : State) : Out :=
  matrixCmd (.tldb x y k c pitch) k c (fun t => .tldb x (t.w.sreg y).toNat (litNat pitch) t.w.fmt) s
def execMma (x : Fin 16) (y : Fin 64) (z : Fin 16) (k c : Fin 16) (mode : Option Word) (s : State) : Out :=
  matrixCmd (.mma x y z k c mode) k c (fun t => .mma x z y (mode.getD 0) t.w.fmt) s
def execTzero (x : Fin 16) (k c : Fin 16) (s : State) : Out := matrixCmd (.tzero x k c) k c (fun _ => .tzero x) s
def execTst (x : Fin 16) (y : Fin 64) (k c : Fin 16) (pitch : Option Word) (s : State) : Out :=
  matrixCmd (.tst x y k c pitch) k c (fun t => .tst x (t.w.sreg y).toNat (litNat pitch)) s
def execTcvt (x y : Fin 16) (k c : Fin 16) (cw : Option Word) (s : State) : Out :=
  matrixCmd (.tcvt x y k c cw) k c (fun t => .tcvt x y (cw.getD 0x7F) t.w.fmt) s
def execAscan (x y : Fin 16) (z : Fin 4) (k c : Fin 16) (s : State) : Out :=
  matrixCmd (.ascan x y z k c) k c (fun _ => .ascan x y z) s
def execCld (x : Fin 4) (y : Fin 64) (k c : Fin 16) (s : State) : Out :=
  matrixCmd (.cld x y k c) k c (fun t => .cld x (t.w.sreg y).toNat) s
def execCst (x : Fin 4) (y : Fin 64) (k c : Fin 16) (s : State) : Out :=
  matrixCmd (.cst x y k c) k c (fun t => .cst x (t.w.sreg y).toNat) s

/-! ### Operand elements (R266, R272, R396) -/

/-- One A row or B column: its 64 values, its scale codes, whether decoding sets NFMT, its poisoned elements. -/
structure Row where
  vals : List Num
  ints : List Int
  s0   : Nat
  s1   : Nat
  nfmt : Bool
  psn  : List Nat                    -- the elements replaced (R396)
  deriving Repr

/-- A row read from its 128 bytes, with the poison of each byte and the elements that met an error inside the engine. -/
def readRow (f : Nat) (scl ftz : Bool) (byte : Nat → Nat) (bad hit : Nat → Bool) : Row :=
  let el := fun (k : Nat) => match f with
    | 1 | 2 => byte (2 * k) + 256 * byte (2 * k + 1)
    | _ => byte k
  let scaled := scl && (f == 3 || f == 4)
  let blk := fun (q : Nat) => n4Decode fun i => byte (18 * q + i)
  let raw : List Num := match f with
    | 6 => (blk 0).1 ++ (blk 1).1
    | 5 => []
    | 1 => (List.range 64).map fun k => bf16Value ftz (el k)
    | 2 => (List.range 64).map fun k => fp16.decode (el k)
    | 3 => (List.range 64).map fun k => e4m3.decode (el k)
    | _ => (List.range 64).map fun k => e5m2.decode (el k)
  let bytesOf := fun (k : Nat) => match f with
    | 1 | 2 => [2 * k, 2 * k + 1]
    | 6 =>
      let b := 18 * (k / 32) + k % 32 / 2
      [b, 18 * (k / 32) + 16] ++ (if byte b / 16 ^ (k % 2) % 16 = 8 then [18 * (k / 32) + 17] else [])
    | _ => k :: (if scaled then [64 + k / 32] else [])
  let psn := (List.range 64).filter fun k => (bytesOf k).any bad || hit k
  let sc := fun (q : Nat) => if scaled && !bad (64 + q) then byte (64 + q) else 0x7F
  { vals := (raw.zipIdx).map fun p => if psn.contains p.2 then .fin false 0 0 else p.1
    ints := if f = 5 then (List.range 64).map fun k => if psn.contains k then 0 else sext 8 (el k) else []
    s0 := sc 0, s1 := sc 1
    nfmt := f == 6 && ((blk 0).2 || (blk 1).2)
    psn := psn }

def Tile.byte (t : Tile) (b : Nat) : Nat := (Memory.get t.bytes b).toNat
def Tile.bad (t : Tile) (b : Nat) : Bool := Marks.has t.psn (b / 4)
def BSlot.byte (t : BSlot) (b : Nat) : Nat := (Memory.get t.bytes b).toNat
def BSlot.bad (t : BSlot) (b : Nat) : Bool := Marks.has t.psn (b / 4)

/-- An accumulator element's word index in its slot (R265). -/
def elemWord (wide : Bool) (i j : Nat) : Nat := imageCols wide * i + j

def Tile.word (t : Tile) (k : Nat) : Word := Memory.word t.bytes (4 * k)

/-- Word k of a slot written, clean (R393). -/
def Tile.setWord (t : Tile) (k : Nat) (v : Word) : Tile :=
  { t with bytes := Memory.setN t.bytes (4 * k) 4 v.toNat, psn := Marks.del t.psn k }

/-- A byte of a slot written; a word covered only in part keeps its mark. -/
def Tile.setByte (t : Tile) (b v : Nat) : Tile := { t with bytes := Memory.set t.bytes b (BitVec.ofNat 8 v) }

/-- The tile of zeros at its configured size (R268). -/
def Tile.zeroed (t : Tile) : Tile :=
  let n := if t.wide then 8192 else 4096
  { t with bytes := Memory.clear t.bytes 0 n, psn := t.psn.filter fun k => decide (n ≤ 4 * k) }

/-- One replaced element for the log (R396, R400): operand, slot number, X, Y, unit. -/
abbrev Lost := Nat × Nat × Nat × Nat × Nat

/-! ### MMA (R272) -/

/-- One element of the product: the four groups in ascending k (R97). -/
def mmaElem (isInt : Bool) (a b : Row) (acc : Word) : Flagged :=
  (List.range 4).foldl (fun r g =>
    let (v, f) :=
      if isInt then groupInt r.1 ((List.range 16).map fun i => (a.ints.getD (16 * g + i) 0, b.ints.getD (16 * g + i) 0))
      else groupAcc r.1 ((List.range 16).map fun i => (a.vals.getD (16 * g + i) .nan, b.vals.getD (16 * g + i) .nan))
        (if g < 2 then a.s0 else a.s1) (if g < 2 then b.s0 else b.s1)
    (v, r.2 ||| f)) (acc, 0)

/-- Elements that met an uncorrectable error inside the engine (R396): operand number, X, Y. -/
abbrev Hits := Nat → Nat → Nat → Bool

/-- MMA's destination, flags and replaced elements. -/
def mmaTile (d a : Tile) (m : BSlot) (dn an mn : Nat) (mode : Word) (f : BitVec 16) (hit : Hits) : Tile × Word × List Lost :=
  let c0 := if mode.getLsbD 1 then 32 else 0
  let init := mode.getLsbD 0
  let isInt := fmtC f == 7
  let rows := (List.range 32).map fun i =>
    readRow (fmtA f) (fmtAscl f) (fmtFtz f) (fun b => a.byte (128 * i + b)) (fun b => a.bad (128 * i + b)) (hit 1 i)
  let cols := (List.range 32).map fun j =>
    readRow (fmtB f) (fmtBscl f) (fmtFtz f) (fun b => m.byte (128 * j + b)) (fun b => m.bad (128 * j + b)) (hit 2 · j)
  let at_ := fun i j => elemWord d.wide i (c0 + j)
  let badD := fun i j => Marks.has d.psn (at_ i j) || hit 3 i (c0 + j)
  let accOf := fun i j => if init || badD i j then 0 else d.word (at_ i j)
  let out := rows.zipIdx.flatMap fun (r, i) => cols.zipIdx.map fun (c, j) => (at_ i j, mmaElem isInt r c (accOf i j))
  let nf := flagIf ((rows.any Row.nfmt) || (cols.any Row.nfmt)) flagNFMT
  let lostA := rows.zipIdx.flatMap fun (r, i) => r.psn.map fun k => (1, an, i, k, 8)
  let lostB := (List.range 64).flatMap fun k => (cols.zipIdx.filter fun (c, _) => c.psn.contains k).map fun (_, j) => (2, mn, k, j, 9)
  let lostD := if init then [] else (List.range 32).flatMap fun i =>
    ((List.range 32).filter (badD i)).map fun j => (3, dn, i, c0 + j, 8)
  (out.foldl (fun t p => t.setWord p.1 p.2.1) d, out.foldl (fun x p => x ||| p.2.2) nf, lostA ++ lostB ++ lostD)

/-! ### TCVT (R274) -/

/-- TCVT's destination, flags and replaced elements. -/
def tcvtTile (d src : Tile) (sn : Nat) (cw : Word) (f : BitVec 16) (hit : Hits) : Tile × Word × List Lost :=
  let e := bitsOf cw 0 8
  let khi := if cw.getLsbD 8 then 1 else 0
  let cols := imageCols src.wide
  let cf := fmtC f
  let bad := fun i j => Marks.has src.psn (elemWord src.wide i j) || hit 3 i j
  let lost := (List.range 32).flatMap fun i =>
    ((List.range cols).filter (bad i)).map fun j => (3, sn, i, j, 8)
  let x := fun i j =>
    let k := elemWord src.wide i j
    if bad i j then Num.fin false 0 0
    else if bitsOf cw 12 4 = 7 then Num.ofInt (src.word k).toInt 0 else f32 (src.word k)
  let scaled := fun i j => (x i j).scale (127 - (e : Int))
  let conv := fun (v : Num) => match cf with
    | 5 => satInt true 8 .rn v
    | 7 => satInt true 32 .rn v
    | n => ((floatOfCode n).getD fp32).sat .rn v
  let coords := (List.range 32).flatMap fun i => (List.range cols).map fun j => (i, j)
  if isAccFmt cf then
    let out := coords.map fun p => (elemWord src.wide p.1 p.2, conv (scaled p.1 p.2))
    (out.foldl (fun t p => t.setWord p.1 p.2.1) d, out.foldl (fun z p => z ||| p.2.2) 0, lost)
  else
    let writes : List (Nat × Nat) × Word :=
      if cf = 6 then
        let blocks := (List.range 32).flatMap fun i => (List.range (cols / 32)).map fun h =>
          let q := if src.wide then h else khi
          let (bytes, fl) := n4Pack ((List.range 32).map fun j => x i (32 * h + j)) e
          (bytes.zipIdx.map fun b => (128 * i + 18 * q + b.2, b.1), fl)
        (blocks.flatMap Prod.fst, blocks.foldl (fun z b => z ||| b.2) 0)
      else
        let els := coords.map fun p => (p, conv (scaled p.1 p.2))
        let bytes := els.flatMap fun q =>
          let k := if src.wide then q.1.2 else 32 * khi + q.1.2
          if cf = 1 ∨ cf = 2 then [(128 * q.1.1 + 2 * k, q.2.1.toNat % 256), (128 * q.1.1 + 2 * k + 1, q.2.1.toNat / 256 % 256)]
          else [(128 * q.1.1 + k, q.2.1.toNat % 256)]
        let scales := if (cf = 3 ∨ cf = 4) ∧ fmtAscl f then
            (List.range 32).flatMap fun i => (if src.wide then [0, 1] else [khi]).map fun q => (128 * i + 64 + q, e)
          else []
        (bytes ++ scales, els.foldl (fun z q => z ||| q.2.2) 0)
    let addrs := writes.1.map Prod.fst
    let t := writes.1.foldl (fun t p => t.setByte p.1 p.2) d
    let covered := fun (k : Nat) => (List.range 4).all fun b => addrs.contains (4 * k + b)
    ({ t with psn := t.psn.filter fun k => !covered k }, writes.2, lost)

/-! ### ASCAN (R275) -/

def Carry.channel (c : Carry) (j : Nat) : Channel := { h := c.h.getD j 0, gc := c.g.getD j 0, hor := c.hor.getLsbD j }

/-- ASCAN's two tiles, carry register, flags and replaced elements. -/
def ascanTiles (g o : Tile) (c : Carry) (gn on_ cn : Nat) (hit : Hits) : Tile × Tile × Carry × Word × List Lost :=
  let bad := fun (t : Tile) (op p j : Nat) => Marks.has t.psn (elemWord false p j) || hit op p j
  let badC := fun (j : Nat) => c.psn.getLsbD j || hit 6 0 j
  let el := fun (t : Tile) (op p j : Nat) => if bad t op p j then 0 else t.word (elemWord false p j)
  let chan := fun j => if badC j then { h := 0, gc := 0x3F800000, hor := false } else c.channel j
  let rs := lanes.map fun j => scanChunk (fun t => el g 4 t j) (fun t => el o 5 t j) (chan j)
  let lostT : Tile → Nat → Nat → List Lost := fun t op n => (List.range 32).flatMap fun p => (lanes.filter (bad t op p)).map fun j => (op, n, p, j, 8)
  let lost := lostT g 4 gn ++ lostT o 5 on_ ++ (lanes.filter badC).map fun j => (6, cn, 0, j, 10)
  let put := fun (t : Tile) (pick : (List Word × List Word × Channel × Word) → List Word) =>
    rs.zipIdx.foldl (fun t r => ((pick r.1).zipIdx).foldl (fun t v => t.setWord (elemWord false v.2 r.2) v.1) t) t
  let ch := rs.map fun r => r.2.2.1
  (put g fun r => r.1, put o fun r => r.2.1,
    { h := ch.map Channel.h, g := ch.map Channel.gc, hor := laneMask fun j => (ch.getD j { h := 0, gc := 0, hor := false }).hor, psn := 0 },
    rs.foldl (fun f r => f ||| r.2.2.2) 0, lost)

/-! ### Effects on the workgroup -/

def Workgroup.tile (g : Workgroup) (t : Nat) : Tile := g.tiles.getD t {}
def Workgroup.slot (g : Workgroup) (m : Nat) : BSlot := g.bslots.getD m {}

/-- Rows of the scratchpad as a slot image: row i's first RB bytes, then zeros (R269); with the marks of its words (R394). -/
def Workgroup.image (g : Workgroup) (off p rb : Nat) : Bytes × List Nat :=
  let cells := (List.range 32).flatMap fun i => (List.range rb).filterMap fun b =>
    let v := Memory.get g.scratch (off + i * p + b)
    if v = 0 then none else some (128 * i + b, v)
  let marks := (List.range 1024).filter fun k =>
    (List.range 4).any fun x =>
      let b := k % 32 * 4 + x
      decide (b < rb) && Marks.has g.scrPsn ((off + k / 32 * p + b) / 4)
  (cells, marks)

/-- The words of a record stored in the scratchpad with their marks. -/
def Workgroup.storeWords (g : Workgroup) (off : Nat) (ws : List (Word × Bool)) : Workgroup :=
  ws.zipIdx.foldl (fun (g : Workgroup) p =>
    { g with scratch := Memory.setN g.scratch (off + 4 * p.2) 4 p.1.1.toNat, scrPsn := Marks.put g.scrPsn (off / 4 + p.2) p.1.2 }) g

/-- CLD: a carry register from its record (R69, R276). -/
def Workgroup.loadCarry (g : Workgroup) (off : Nat) : Carry :=
  let w := fun n => Memory.word g.scratch (off + 4 * n)
  let bad := fun n => Marks.has g.scrPsn (off / 4 + n)
  { h := lanes.map w, g := lanes.map fun j => w (32 + j), hor := w 64, psn := laneMask fun j => bad j || bad (32 + j) || bad 64 }

/-- CST: the carry record's 68 words (R276); the horizon word is poisoned with any channel (R394). -/
def Carry.words (c : Carry) : List (Word × Bool) :=
  (lanes.map fun j => (c.h.getD j 0, c.psn.getLsbD j)) ++ (lanes.map fun j => (c.g.getD j 0, c.psn.getLsbD j)) ++ [(c.hor, c.psn != 0), (0, false), (0, false), (0, false)]

/-- What a command does to its workgroup and its warp: both changed, the flags it raises, the elements it replaced; `hit`: elements that met an
error inside the engine. -/
def Cmd.run (c : Cmd) (g : Workgroup) (w : Warp) (hit : Hits) : Workgroup × Warp × Word × List Lost :=
  let setTile := fun (g : Workgroup) (n : Nat) (t : Tile) => { g with tiles := g.tiles.set n t }
  match c with
  | .tcfg t cw => (setTile g t { occ := true, wide := cw.getLsbD 0 }, w, 0, [])
  | .tlda t off p f =>
    let rb := rowBytes (fmtA f) (fmtAscl f)
    let (b, m) := g.image off (p.getD rb) rb
    let old := g.tile t
    (setTile g t { old with bytes := b ++ old.bytes.filter fun c => decide (4096 ≤ c.1)
                            psn := m ++ old.psn.filter fun k => decide (1024 ≤ k) }, w, 0, [])
  | .tldb m off p f =>
    let rb := rowBytes (fmtB f) (fmtBscl f)
    let (b, k) := g.image off (p.getD rb) rb
    ({ g with bslots := g.bslots.set m { occ := true, bytes := b, psn := k } }, w, 0, [])
  | .mma d a m mode f =>
    let (t, fl, lost) := mmaTile (g.tile d) (g.tile a) (g.slot m) d a m mode f hit
    (setTile g d t, w, fl, lost)
  | .tzero t =>
    let old := g.tile t
    (setTile g t ((if old.occ then old else { old with occ := true, wide := false }).zeroed), w, 0, [])
  | .tst t off p =>
    let tl := g.tile t
    let cols := imageCols tl.wide
    ((List.range 32).foldl (fun g i => g.storeWords (off + i * p.getD (4 * cols))
      ((List.range cols).map fun j => (tl.word (elemWord tl.wide i j), Marks.has tl.psn (elemWord tl.wide i j)))) g, w, 0, [])
  | .tcvt d src cw f =>
    let (t, fl, lost) := tcvtTile (g.tile d) (g.tile src) src cw f hit
    (setTile g d t, w, fl, lost)
  | .ascan gn on_ k =>
    let (tg, to_, car, fl, lost) := ascanTiles (g.tile gn) (g.tile on_) (w.carry.getD k { h := [], g := [], hor := 0, psn := 0 }) gn on_ k hit
    (setTile (setTile g gn tg) on_ to_, { w with carry := w.carry.set k car }, fl, lost)
  | .cld k off => (g, { w with carry := w.carry.set k (g.loadCarry off) }, 0, [])
  | .cst k off => (g.storeWords off ((w.carry.getD k { h := [], g := [], hor := 0, psn := 0 }).words), w, 0, [])
  | .copy _ _ => (g, w, 0, [])

/-- The op number of a command's instruction, for its log records (R400). -/
def Cmd.opNumber : Cmd → Nat
  | .tcfg .. => 0x2C | .tlda .. => 0x2D | .tldb .. => 0x2E | .mma .. => 0x2F | .tzero .. => 0x30 | .tst .. => 0x31
  | .tcvt .. => 0x32 | .ascan .. => 0x33 | .cld .. => 0x34 | .cst .. => 0x35
  | .copy .ld _ | .copy .st _ => 0x36 | .copy .sld _ | .copy .sst _ => 0x37
  | .copy .c _ => 0x38 | .copy .g _ => 0x39 | .copy .x _ => 0x3A

/-- The records of replaced elements (R396, R400). -/
def State.logLost (s : State) (w : Warp) (o : Op) (opn : Nat) (lost : List Lost) : State :=
  lost.foldl (fun s l => s.logMemWarp w 2 o.pc.toNat (BitVec.ofNat 32 (opn * 2 ^ 8 + l.2.2.2.2))
    (BitVec.ofNat 32 (l.1 * 2 ^ 28 + l.2.1 * 2 ^ 22 + l.2.2.1 * 2 ^ 16 + l.2.2.2.1))) s

/-- Flags that an operation raises later in its warp (R67); an ended warp's are gone with it. -/
def State.raiseLater (s : State) (wi : Nat) (f : Word) : State :=
  s.modWarp wi fun (w : Warp) => if w.status == .running then w.raise f else w

/-- A matrix or scan command is refused (R264): NV, complete at once. -/
def State.refuseCmd (s : State) (i : Nat) (o : Op) : State :=
  ((s.modOp i fun o => { o with refusal := true }).raiseLater o.warp flagNV).completeOp i

/-- Two MMAs of one core never run at the same time, and neither do two ASCANs (R291). -/
def State.arrayBusy (s : State) (core : Nat) (c : Cmd) : Bool :=
  s.ops.any fun o => o.core == core && o.status == .started && (match c, o.kind with
    | .mma .., .cmd (.mma ..) => true
    | .ascan .., .cmd (.ascan ..) => true
    | _, _ => false)

/-- A carry register of a warp. -/
def Warp.carryReg (w : Warp) (k : Nat) : Carry := w.carry.getD k { h := [], g := [], hor := 0, psn := 0 }

/-- What a command that begins has read of the units it reads (R263). -/
def Cmd.capture (c : Cmd) (g : Workgroup) (w : Warp) : Captured :=
  c.uses.1.foldl (fun k u => match u with
    | .tile t => { k with tiles := (t, g.tile t) :: k.tiles }
    | .slot m => { k with slots := (m, g.slot m) :: k.slots }
    | .carry r => { k with carry := (r, w.carryReg r) :: k.carry }) {}

/-- A workgroup and a warp with what was read put back in its places. -/
def Captured.view (k : Captured) (g : Workgroup) (w : Warp) : Workgroup × Warp :=
  ({ g with tiles := k.tiles.foldl (fun l p => l.set p.1 p.2) g.tiles, bslots := k.slots.foldl (fun l p => l.set p.1 p.2) g.bslots },
    { w with carry := k.carry.foldl (fun l p => l.set p.1 p.2) w.carry })

/-- A matrix or scan command leaves its queue (R262, R263, R264): it is refused at once, or it begins when its snapshot has
performed and no unfinished earlier command keeps it from the value rules; it reads its slots and carry registers then. -/
def State.startMatrix (s : State) (i : Nat) (o : Op) (c : Cmd) : State :=
  match s.wgs[o.wg]?, s.warps[o.warp]? with
  | some g, some w => match s.grids[g.grid]? with
    | none => s
    | some gr =>
      if c.refused (s.viewBefore g o.wg i gr.lrec) gr.lrec then s.refuseCmd i o
      else if s.snapAt o .wg && !((s.cmdsBefore o.wg i).any fun p => p.2.conflicts c (p.1.status == .started) (p.1.warp == o.warp))
          && !s.arrayBusy o.core c then
        s.modOp i fun o => { o with status := .started, caps := c.capture g w }
      else s
  | _, _ => s

/-- Whether a command taken later has completed with a write to a unit: its value remains (R263). -/
def State.overwritten (s : State) (i : Nat) (o : Op) (u : Unit3) : Bool :=
  (s.ops.drop (i + 1)).any fun x => x.wg == o.wg && x.status == .complete && !x.refusal && (match x.kind with
    | .cmd c => !c.isCopy && unitsMeet c.uses.2 [u] (x.warp == o.warp)
    | _ => false)

/-- What a command has written reaches its workgroup and its warp: the scratchpad, and the units that it writes (R263). -/
def State.putUnits (s : State) (i : Nat) (o : Op) (c : Cmd) (g' : Workgroup) (w' : Warp) : State :=
  let us := c.uses.2.filter fun u => !s.overwritten i o u
  let put := fun (g : Workgroup) (u : Unit3) => match u with
    | .tile t => { g with tiles := g.tiles.set t (g'.tile t) }
    | .slot m => { g with bslots := g.bslots.set m (g'.slot m) }
    | .carry _ => g
  let putW := fun (w : Warp) (u : Unit3) => match u with
    | .carry r => { w with carry := w.carry.set r (w'.carryReg r) }
    | _ => w
  (s.modWg o.wg fun (g : Workgroup) => us.foldl put { g with scratch := g'.scratch, scrPsn := g'.scrPsn }).modWarp o.warp
    fun (w : Warp) => us.foldl putW w

/-- A matrix or scan command ends: its writes are done, its flags set, ECCZ when an element was replaced (R67, R262, R263, R396). -/
def State.finishMatrix (s : State) (i : Nat) (o : Op) (c : Cmd) : State :=
  match s.wgs[o.wg]?, s.warps[o.warp]? with
  | some g, some w =>
    if (s.cmdsBefore o.wg i).any fun p => p.2.endsAfter c (p.1.warp == o.warp) then s
    else
      let v := o.caps.view g w
      let (g', w', f, lost) := c.run v.1 v.2 fun opnd x y => o.hits.contains (opnd, x, y)
      let s := s.putUnits i o c g' w'
      let s := s.raiseLater o.warp (f ||| flagIf (!lost.isEmpty) flagECCZ)
      (s.logLost w o c.opNumber lost).completeOp i
  | _, _ => s

/-- ENGINE_COMMAND_COMPLETE (R262). -/
def execEngineCommandComplete (op : Nat) (s : State) : Out :=
  .next (match s.ops[op]? with
    | some o => match o.kind, o.status with
      | .cmd c, .started => if c.isCopy then s else s.finishMatrix op o c
      | _, _ => s
    | none => s)

end Sys2Proof.Machine
end

