-- ==== Sys2Proof/Machine/Rings.lean ====
section
/-! DEFINITION. Stage rings (R50, R51, R81, R149, R287 to R290). -/

namespace Sys2Proof.Machine

open Sys2Proof

def Workgroup.ring (g : Workgroup) (n : Nat) : Ring := g.rings.getD n {}
def Ring.slot (r : Ring) (i : Nat) : RingSlot := r.slots.getD i {}

def State.modRing (s : State) (wg n : Nat) (f : Ring → Ring) : State :=
  s.modWg wg fun (g : Workgroup) => { g with rings := g.rings.modify n f }

/-- The ring that RINIT sets up from its three words, none when they break R287. Waiting acquisitions stay and re-evaluate. -/
def Ring.init (old : Ring) (w0 w2 w3 : Word) (bytes : Nat) : Option Ring :=
  let n := bitsOf w0 26 6 + 1
  let base := bitsOf w0 0 21
  let slotb := bitsOf w2 0 21
  if n < 2 ∨ bitsOf w0 21 5 ≠ 0 ∨ base % 4 ≠ 0 ∨ bitsOf w2 21 11 ≠ 0 ∨ slotb % 4 ≠ 0 ∨ slotb < 4 ∨ w3 ≠ 0 ∨ bytes < base + n * slotb then none
  else some { n := n, base := base, slotb := slotb, free := n, slots := List.replicate n {}, pwait := old.pwait, cwait := old.cwait, word3 := w3 }

/-- RINIT (R287): the ring-state trap when the operands break the rules (R377). -/
def execRinit (x : Fin 8) (y : Fin 64) (s : State) : Out :=
  issue (.rinit x y) s fun c =>
    match (c.g.ring x).init (c.w.sreg y) (c.w.sreg (y.val + 1)) (c.w.sreg (y.val + 2)) (c.gr.lrec.scr * 65536) with
    | none => s.takeTrap s.cur 0x03 c.w.pc (pcAdd c.w.pc 4)
    | some r => (s.modRing c.w.wg x fun _ => r).modWarp s.cur fun w => w.next (.rinit x y)

/-- The ring word (R288). -/
def Ring.word (r : Ring) (i : Nat) (ph : Bool) : Word := BitVec.ofNat 32 (ph.toNat * 2 ^ 31 + i * 2 ^ 21 + (r.base + i * r.slotb) % 2 ^ 21)

/-- What an acquisition takes: the ring after it, the slot, its phase, the set it passes (R289, R290); none while none is there. -/
def Ring.acquire (r : Ring) (consumer : Bool) : Option (Ring × Nat × Bool × List Member) :=
  if consumer then
    if r.filled = 0 then none
    else
      let i := (r.cidx + r.ocons) % r.n
      some ({ r with filled := r.filled - 1, ocons := r.ocons + 1, slots := r.slots.modify i fun x => { x with cacq := true } },
        i, r.cph ^^ decide (r.n ≤ r.cidx + r.ocons), (r.slot i).fill)
  else
    if r.free = 0 then none
    else
      let i := (r.pidx + r.oprod) % r.n
      some ({ r with free := r.free - 1, oprod := r.oprod + 1, slots := r.slots.modify i fun x => { x with pacq := true } },
        i, r.pph ^^ decide (r.n ≤ r.pidx + r.oprod), (r.slot i).free)

/-- Committed slots at the producer index are counted in FILLED (R289). -/
def Ring.countFilled : Nat → Ring → Ring
  | 0, r => r
  | k + 1, r =>
    if (r.slot r.pidx).pcom then
      let wrap := decide (r.pidx + 1 = r.n)
      Ring.countFilled k { r with slots := r.slots.modify r.pidx fun x => { x with pcom := false }, filled := r.filled + 1
                                  pidx := if wrap then 0 else r.pidx + 1, pph := r.pph ^^ wrap }
    else r

/-- Released slots at the consumer index are counted in FREE (R290). -/
def Ring.countFree : Nat → Ring → Ring
  | 0, r => r
  | k + 1, r =>
    if (r.slot r.cidx).crel then
      let wrap := decide (r.cidx + 1 = r.n)
      Ring.countFree k { r with slots := r.slots.modify r.cidx fun x => { x with crel := false }, free := r.free + 1
                                cidx := if wrap then 0 else r.cidx + 1, cph := r.cph ^^ wrap }
    else r

/-- A commit of a slot held by the producer side, with the fill set (R289). -/
def Ring.commit (r : Ring) (i : Nat) (set : List Member) : Option Ring :=
  if i < r.n ∧ (r.slot i).pacq then
    let r := { r with oprod := r.oprod - 1, slots := r.slots.modify i fun x => { x with pacq := false, pcom := true, fill := set, fillRef := true } }
    some (r.countFilled r.n)
  else none

/-- A release of a slot held by the consumer side, with the free set (R290). -/
def Ring.release (r : Ring) (i : Nat) (set : List Member) : Option Ring :=
  if i < r.n ∧ (r.slot i).cacq then
    let r := { r with ocons := r.ocons - 1, slots := r.slots.modify i fun x => { x with cacq := false, crel := true, free := set, freeRef := true } }
    some (r.countFree r.n)
  else none

/-- A key that receives a ring slot's set (R149): the members are added to it; k15 records nothing. -/
def Warp.produceSet (w : Warp) (k : Nat) (set : List Member) : Warp := w.setKey k (joinSets (w.keySet k) set)

/-- What an acquisition comes to: no slot is there, the key would exceed 4,095 members (R140), or it is made. -/
inductive Acquired where
  | none
  | limit (ms : List Member)
  | got (s : State)
  deriving DecidableEq, Repr

/-- The acquisition of a warp made: the ring word to s(y), the slot's set to the produce key. -/
def State.doAcquire (s : State) (wg ring wi : Nat) (consumer : Bool) (y k : Nat) : Acquired :=
  match s.wgs[wg]?, s.warps[wi]? with
  | some g, some w =>
    match (g.ring ring).acquire consumer with
    | none => .none
    | some (r, i, ph, set) =>
      let ms := joinSets (w.keySet k) set
      if k ≠ 15 ∧ 4095 < setCount ms then .limit ms
      else .got ((s.modRing wg ring fun _ => r).modWarp wi fun (w : Warp) =>
        let w := (w.setS y (r.word i ph) false).produceSet k set
        { w with pc := pcAdd w.pc 4, wait := .none })
  | _, _ => .none

/-- The acquisitions that wait at a ring's side. -/
def Ring.queue (r : Ring) (consumer : Bool) : List RingWait := if consumer then r.cwait else r.pwait

def Ring.setQueue (r : Ring) (consumer : Bool) (q : List RingWait) : Ring := if consumer then { r with cwait := q } else { r with pwait := q }

/-- RPUT.acq and RGET.acq (R51, R289, R290): acquisitions are granted in the order in which they reached the ring. One whose key would exceed
4,095 members stalls at issue (R140). -/
def State.ringAcquire (s : State) (c : Ctx) (ring : Nat) (consumer : Bool) (y k : Nat) : State :=
  let r := c.g.ring ring
  let q := r.queue consumer
  let mine := q.any fun x => x.warp == s.cur
  if r.n = 0 then s.takeTrap s.cur 0x03 c.w.pc (pcAdd c.w.pc 4)
  else
    match c.w.produceWait k with
    | some x => s.waitFor s.cur x
    | none =>
      match if (q.map RingWait.warp).headD s.cur = s.cur then s.doAcquire c.w.wg ring s.cur consumer y k else .none with
      | .got s => if mine then s.modRing c.w.wg ring fun r => r.setQueue consumer (q.drop 1) else s
      | .limit ms => s.waitFor s.cur (.keyLimit ms 0)
      | .none =>
        let add := fun (r : Ring) => if mine then r else r.setQueue consumer (q ++ [{ warp := s.cur, y := y, k := k }])
        (s.modRing c.w.wg ring add).waitFor s.cur (.ringAcq ring consumer)

/-- RPUT.cmt and RGET.rel (R289, R290): the slot index is bits 26:21 of s(y). -/
def State.ringGive (s : State) (i : Instr) (c : Ctx) (ring : Nat) (consumer : Bool) (y k : Nat) : State :=
  let r := c.g.ring ring
  let slot := bitsOf (c.w.sreg y) 21 6
  let set := c.w.keySet k
  match if r.n = 0 then none else if consumer then r.release slot set else r.commit slot set with
  | none => s.takeTrap s.cur 0x03 c.w.pc (pcAdd c.w.pc 4)
  | some r => (s.modRing c.w.wg ring fun _ => r).modWarp s.cur fun w => w.next i

def execRputAcq (x : Fin 8) (y : Fin 64) (k : Fin 16) (s : State) : Out :=
  issue (.rputAcq x y k) s fun c => s.ringAcquire c x false y k
def execRgetAcq (x : Fin 8) (y : Fin 64) (k : Fin 16) (s : State) : Out :=
  issue (.rgetAcq x y k) s fun c => s.ringAcquire c x true y k
def execRputCmt (x : Fin 8) (y : Fin 64) (c : Fin 16) (s : State) : Out :=
  issue (.rputCmt x y c) s fun t => s.ringGive (.rputCmt x y c) t x false y c
def execRgetRel (x : Fin 8) (y : Fin 64) (c : Fin 16) (s : State) : Out :=
  issue (.rgetRel x y c) s fun t => s.ringGive (.rgetRel x y c) t x true y c

/-- Whether a waiting warp is held at its consumer acquire: a pre-emption request names its workgroup (R55, R56). -/
def State.consumerHeld (s : State) (g : Workgroup) (wi : Nat) : Bool := g.preempt && match s.warps[wi]? with
  | some w => !w.masked
  | none => false

/-- RING_ACQUIRE_GRANT (R51): the oldest waiting acquisition of a side is granted, but to no consumer that is held (R55); one whose key would
exceed 4,095 members goes on as an issue stall (R140). -/
def execRingAcquireGrant (wg : Nat) (ring : Fin 8) (consumer : Bool) (s : State) : Out :=
  .next (match s.wgs[wg]? with
    | none => s
    | some g => match (g.ring ring).queue consumer with
      | [] => s
      | x :: q => match if consumer && s.consumerHeld g x.warp then .none else s.doAcquire wg ring x.warp consumer x.y x.k with
        | .none => s
        | .limit ms => s.waitFor x.warp (.keyLimit ms 0)
        | .got s => s.modRing wg ring fun r => r.setQueue consumer q)

end Sys2Proof.Machine
end

