-- ==== Sys2Proof/Machine/Copy.lean ====
section
/-! DEFINITION. Copy commands (R277 to R286, R404, R406): their issue, their checks, their accesses word by word, their completion. -/

namespace Sys2Proof.Machine

open Sys2Proof

/-! ### Descriptor fields (R277, R278) -/

def CopyArgs.soff (a : CopyArgs) : Nat := a.d0.toNat
def CopyArgs.rows (a : CopyArgs) : Nat := bitsOf a.d1 16 16
def CopyArgs.rowb (a : CopyArgs) : Nat := bitsOf a.d1 0 16
def CopyArgs.len (a : CopyArgs) : Nat := a.d1.toNat
def CopyArgs.ioff (a : CopyArgs) : Nat := bitsOf a.d2 0 21
def CopyArgs.nb (a : CopyArgs) : Nat := bitsOf a.d2 24 8 + 1
def CopyArgs.bar (a : CopyArgs) : Bool := a.d3.getLsbD 31
def CopyArgs.bnum (a : CopyArgs) : Nat := bitsOf a.d3 27 4
def CopyArgs.rcom (a : CopyArgs) : Bool := a.d3.getLsbD 26
def CopyArgs.ringNo (a : CopyArgs) : Nat := bitsOf a.d3 23 3
def CopyArgs.scope? (a : CopyArgs) : Option Scope := Scope.ofCode (bitsOf a.d3 20 3)
def CopyArgs.cmask (a : CopyArgs) : Nat := bitsOf a.d3 0 12

/-- Commands that write the scratchpad (R280). -/
def CopyKind.isLoad : CopyKind → Bool
  | .ld | .sld | .g => true
  | _ => false

def CopyKind.byRows : CopyKind → Bool
  | .ld | .st | .c => false
  | _ => true

/-- The refusals of R277, R278, R281, R282, R286. -/
def copyRefused (k : CopyKind) (a : CopyArgs) (bytes : Nat) : Bool :=
  let align := match k with
    | .c => 128
    | .x => 16
    | _ => 4
  let shape := if k.byRows then
      a.rows == 0 || (k == .x && decide (4095 < a.rows)) || decide (a.rowb < 4) || a.rowb % 4 != 0
    else decide (a.len < 4) || decide (2097152 < a.len) || a.len % 4 != 0
  let d2 := match k with
    | .ld | .st => a.d2 != 0
    | .sld | .sst => bitsOf a.d2 21 11 != 0 || a.d2.toNat % 4 != 0 || (k == .sld && decide (a.d2.toNat < a.rowb)) || a.gp.toNat % 4 != 0
    | .c => a.d2.toNat % 2 != 0
    | .g => bitsOf a.d2 21 11 != 0
    | .x => bitsOf a.d2 21 3 != 0
  let ends := match k with
    | .ld | .st | .c => a.soff + a.len
    | .sld | .sst => a.soff + (a.rows - 1) * a.d2.toNat + a.rowb
    | .g | .x => max (a.soff + a.rows * a.rowb) (a.ioff + 4 * a.rows)
  bitsOf a.d0 21 11 != 0 || a.soff % 4 != 0 || a.addr % align != 0 || shape || d2 || decide (bytes < ends)
    || bitsOf a.d3 12 8 != 0 || a.scope?.isNone || (a.cmask != 0 && !(k == .ld || k == .sld))

/-! ### Issue -/

/-- A copy command (R261): whatever EMASK holds (R260). -/
def copyCmd (i : Instr) (kind : CopyKind) (x y : Nat) (k c : Fin 16) (off : Option Word) (gp : Word) (s : State) : Out :=
  issue i s fun t =>
    let a : CopyArgs := { addr := t.w.scalarSum x (litOff off), d0 := t.w.sreg y, d1 := t.w.sreg (y + 1), d2 := t.w.sreg (y + 2),
                          d3 := t.w.sreg (y + 3), gp := gp, dreg := y }
    s.issueCmd i t (.copy kind a) ((a.scope?).getD .wg) k c

def execCpyLd (x y : Fin 64) (k c : Fin 16) (off : Option Word) (s : State) : Out := copyCmd (.cpyLd x y k c off) .ld x y k c off 0 s
def execCpySt (x y : Fin 64) (k c : Fin 16) (off : Option Word) (s : State) : Out := copyCmd (.cpySt x y k c off) .st x y k c off 0 s
def execCpysLd (x y : Fin 64) (k c : Fin 16) (gp : Word) (s : State) : Out := copyCmd (.cpysLd x y k c gp) .sld x y k c none gp s
def execCpysSt (x y : Fin 64) (k c : Fin 16) (gp : Word) (s : State) : Out := copyCmd (.cpysSt x y k c gp) .sst x y k c none gp s
def execCpyc (x y : Fin 64) (k c : Fin 16) (off : Option Word) (s : State) : Out := copyCmd (.cpyc x y k c off) .c x y k c off 0 s
def execCpyg (x y : Fin 64) (k c : Fin 16) (off : Option Word) (s : State) : Out := copyCmd (.cpyg x y k c off) .g x y k c off 0 s
def execCpyx (x y : Fin 64) (k c : Fin 16) (off : Option Word) (s : State) : Out := copyCmd (.cpyx x y k c off) .x x y k c off 0 s

/-! ### Completion (R279, R284) -/

/-- The ring step of a copy command: the slot that holds SOFF, committed by a load direction, released by a store direction. -/
def Ring.copyStep (r : Ring) (k : CopyKind) (soff : Nat) (set : List Member) : Option Ring :=
  if r.n = 0 ∨ soff < r.base ∨ r.base + r.n * r.slotb ≤ soff then none
  else
    let i := (soff - r.base) / r.slotb
    if k.isLoad then r.commit i set else r.release i set

/-- The end of a copy command: barrier arrival, then ring step, each with its set; the status word; the key set is left. -/
def State.endCopy (s : State) (i : Nat) (o : Op) (k : CopyKind) (a : CopyArgs) (kind aux novf : Nat) (set : List Member) (found : Option Word) :
    State :=
  match s.wgs[o.wg]? with
  | none => s
  | some g =>
    let barErr := a.bar && (g.bar a.bnum).members == 0
    let s := if a.bar then s.modBar o.wg a.bnum fun b => b.arrive set false none else s
    let step := if a.rcom then (g.ring a.ringNo).copyStep k a.soff set else none
    let ringErr := a.rcom && step.isNone
    let s := match step with
      | some r => s.modRing o.wg a.ringNo fun _ => r
      | none => s
    let status : Word := BitVec.ofNat 32 (kind * 2 ^ 28 + ringErr.toNat * 2 ^ 27 + barErr.toNat * 2 ^ 26 + aux % 4096 * 2 ^ 12 + novf % 4096)
    let s := s.modWarp o.warp fun (w : Warp) =>
      if w.status == .running then
        let w := match found with
          | some v => w.setS (a.dreg + 2) v false
          | none => w
        w.setS (a.dreg + 3) status false
      else w
    s.completeOp i

/-- A copy command is refused (R264, R284): NV, empty sets. -/
def State.refuseCopy (s : State) (i : Nat) (o : Op) (k : CopyKind) (a : CopyArgs) : State :=
  ((s.modOp i fun o => { o with refusal := true }).raiseLater o.warp flagNV).endCopy i o k a 3 0 0 [] none

/-- A COPY record (R400). -/
def State.logCopy (s : State) (o : Op) (addr cause opn : Nat) : State :=
  match s.warps[o.warp]? with
  | some w => s.logMemWarp w 5 (addr % 2 ^ 52) (BitVec.ofNat 32 cause) (BitVec.ofNat 32 opn)
  | none => s

/-- A copy command ends with FAULT (R404). -/
def State.faultCopy (s : State) (i : Nat) (o : Op) (k : CopyKind) (a : CopyArgs) (addr cause : Nat) : State :=
  ((s.modOp i fun o => { o with fail := some cause }).logCopy o addr cause (Cmd.opNumber (.copy k a))).endCopy i o k a 4 (cause * 2 ^ 4) 0 [] none

/-! ### Start: the access checks and the accesses (R280) -/

/-- One word of a copy command. -/
def copyWord (asid va scr scrWg part : Nat) (write : Bool) (isAlias : Bool) : Access :=
  { lane := 32, part := part, space := .global, asid := asid, va := va, size := 4, write := write, isAlias := isAlias, scr := scr, scrWg := scrWg
    be := 15 }

/-- The global and scratchpad addresses of the rows: global address, scratchpad offset, length. -/
def CopyArgs.pieces (a : CopyArgs) (k : CopyKind) : List (Nat × Nat × Nat) :=
  match k with
  | .ld | .st => [(a.addr, a.soff, a.len)]
  | .c => [(a.addr + 128, a.soff, a.len)]
  | .sld | .sst => (List.range a.rows).map fun i => (a.addr + i * a.gp.toNat, a.soff + i * a.d2.toNat, a.rowb)
  | _ => []

/-- The rows of CPYG: index 0xFFFF_FFFF reads nothing (R283). -/
def CopyArgs.gather (a : CopyArgs) (g : Workgroup) : List (Option Nat × Nat × Nat) :=
  (List.range a.rows).map fun i =>
    let x := (Memory.word g.scratch (a.ioff + 4 * i)).toNat
    (if x = 2 ^ 32 - 1 then none else some (a.addr + x * a.rowb), a.soff + i * a.rowb, a.rowb)

/-- The first failure of some spans, for an engine on die d: one beyond 2^52, or a page that fails its check; `miss` waits for a frame (R403). -/
def State.spansCheck (s : State) (d asid : Nat) (spans : List (Nat × Nat × Bool × Bool)) : Option (Nat × Chk) :=
  spans.findSome? fun (va, n, w, at_) =>
    if n = 0 then none
    else if 2 ^ 52 < va + n then some (va, .fail 0x14)
    else s.spanCheck asid va n w at_ d

/-- The words of a piece. -/
def State.pieceWords (s : State) (asid wg va scr n : Nat) (write : Bool) : List Access :=
  (List.range (n / 4)).map fun j => copyWord asid (va + 4 * j) (scr + 4 * j) wg 0 write (s.onAlias asid (va + 4 * j))

/-- The workgroups that a multicast reaches, and the DROPPED mask (R285). -/
def State.receivers (s : State) (o : Op) (a : CopyArgs) : List Nat × Nat :=
  match s.wgs[o.wg]? with
  | none => ([], 0)
  | some g =>
    (List.range 12).foldl (fun r j =>
      let k := coreCl o.core * 12 + j
      if a.cmask / 2 ^ j % 2 = 0 ∨ k = o.core ∨ !s.corePresent k then r
      else
        match s.wgs.findIdx? fun h => h.grid == g.grid && h.core == k && h.status == .running with
        | some h => (r.1 ++ [h], r.2)
        | none => (r.1, r.2 + 2 ^ j)) ([], 0)

/-- Bytes that a copy command reads at home, with its core's own stores laid over them; at pkg and sys scope a remote line's from the home slice
itself (R121, R280). -/
def State.copyRead (s : State) (o : Op) (x : Access) : Nat × Nat :=
  (Sys2Proof.Machine.gather (fun b => some (s.coreHomeByte o.core (bypasses o x) x.asid b)) x.va x.size).getD (0, 0)

/-- An atomic step of an engine, for the accesses `js` of its operation, which carry the operands: it goes to the combining buffer, or for an
alias page to the canonical home, one message for all of them where that lies in another package (R125). -/
def State.engineAtomic (s : State) (i : Nat) (js : List Nat) (act : MemAct) (step2 : Bool) : State :=
  match s.ops[i]?, js with
  | some o, j :: _ =>
    match o.acc[j]? with
    | none => s
    | some a =>
      let s1 := s.onWay a
      match s.arrival (coreDie o.core) a true true with
      | .away c x v => s1.sendRemote i j o a act c x v
      | _ =>
        let words := groupWords o js
        let data := a.data.toNat
        let r : AtomReq := { cluster := coreCl o.core, asid := a.asid, va := a.va, act := act, step2 := step2
                             contribs := (js.zip words).map fun p => { op := i, acc := p.1, x := p.2 }
                             cas := if act = .cas then some (4, BitVec.ofNat 64 (data % 2 ^ 32), BitVec.ofNat 64 (data / 2 ^ 32)) else none }
        let s := js.foldl (fun s n => s.modAcc i n fun a => { a with stage := .remote }) s1
        if a.isAlias || act == .cas || step2 then s.queueAtomic r else s.combineAtomic r
  | _, _ => s

/-- An entry of CPYX's bin table (R286): as three words read them. -/
structure Bin where
  base : Nat
  cap  : Nat
  deriving DecidableEq, Repr

/-- The accesses that read CPYX's bin table: of each entry BASE's two words and CAP. -/
def State.tableWords (s : State) (asid : Nat) (a : CopyArgs) : List Access :=
  (List.range (a.nb + 1)).flatMap fun e => (List.range 3).map fun w =>
    let va := a.addr + 16 * e + 4 * w
    copyWord asid va 0 0 2 false (s.onAlias asid va)

/-- Entry e of the table, from the accesses that have read it. -/
def binOf (acc : List Access) (e : Nat) : Bin :=
  let w := fun k => ((acc[3 * e + k]?).map fun x => x.data.toNat % 2 ^ 32).getD 0
  { base := w 0 + 2 ^ 32 * w 1, cap := w 2 }

/-- Entry e of the table, as a started CPYX keeps it in `aux` after its two counts. -/
def Op.bin (o : Op) (e : Nat) : Bin := { base := o.aux.getD (2 + 2 * e) 0, cap := o.aux.getD (3 + 2 * e) 0 }

/-- Token i's round-1 target (R286). -/
def CopyArgs.target (a : CopyArgs) (g : Workgroup) (i : Nat) : Nat := min (Memory.word g.scratch (a.ioff + 4 * i)).toNat a.nb

/-- The check of a bin that tokens target: the range that its slots cover (R280). -/
def State.binCheck (s : State) (d asid : Nat) (a : CopyArgs) (b : Bin) : Option (Nat × Chk) :=
  if 2 ^ 52 ≤ b.base then some (b.base, .fail 0x14)
  else if b.base % 4 ≠ 0 then some (b.base, .fail 0x13)
  else s.spansCheck d asid [(b.base, b.cap * a.rowb, true, false)]

/-- The checks of CPYX before its first counter step: the pages of the counters, then the bins that tokens target (R280). -/
def State.binsCheck (s : State) (d asid : Nat) (a : CopyArgs) (bins : List Bin) : Option (Nat × Chk) :=
  match s.spansCheck d asid [(a.addr + 12, 16 * a.nb + 4, true, true)] with
  | some r => some r
  | none => bins.findSome? (s.binCheck d asid a)

/-- CPYX's request on the counter of entry e: the tokens' accesses `js` in ascending order, each contributing 1 (R286). -/
def State.counterRequest (s : State) (i asid va : Nat) (js : List Nat) : State :=
  let s := js.foldl (fun s j => s.modAcc i j fun a => { a with va := va, isAlias := s.onAlias asid va, data := 1 }) s
  s.engineAtomic i js (.atom .add) false

/-- CPYX starts: the page of its table is checked, and the table is read (R280). -/
def State.startScatter (s : State) (i : Nat) (o : Op) (a : CopyArgs) (asid : Nat) : State :=
  match s.spansCheck (coreDie o.core) asid [(a.addr, 16 * (a.nb + 1), false, false)] with
  | some (va, .miss) => s.wantFrame asid va
  | some (va, .fail c) => s.faultCopy i o .x a va c
  | _ => s.modOp i fun o => { o with status := .started, acc := s.tableWords asid a, aux := [] }

/-- CPYX goes on once its table is read: the counters and the ranges of the bins that tokens target are checked, then round 1 (R280, R286). -/
def State.firstRound (s : State) (i : Nat) (o : Op) (a : CopyArgs) : State :=
  match s.wgs[o.wg]?, o.acc.head? with
  | some g, some x =>
    let asid := x.asid
    let targets := (List.range a.rows).map fun t => a.target g t
    let used := (List.range (a.nb + 1)).filter fun b => targets.contains b
    match s.binsCheck (coreDie o.core) asid a (used.map (binOf o.acc)) with
    | some (va, .miss) => s.wantFrame asid va
    | some (va, .fail c) => s.faultCopy i o .x a va c
    | _ =>
      let toks := (List.range a.rows).map fun t => copyWord asid (a.addr + 16 * (targets.getD t 0) + 12) (a.soff + t * a.rowb) o.wg 0 true false
      let bins := (List.range (a.nb + 1)).flatMap fun e => [(binOf o.acc e).base, (binOf o.acc e).cap]
      let s := s.modOp i fun o => { o with acc := toks, aux := [0, 0] ++ bins }
      used.foldl (fun s b =>
        s.counterRequest i asid (a.addr + 16 * b + 12) ((List.range a.rows).filter fun t => targets.getD t 0 == b)) s
  | _, _ => s

/-- CPYC starts: the version word's step (R282). -/
def State.startCommit (s : State) (i : Nat) (o : Op) (a : CopyArgs) (asid : Nat) : State :=
  match s.spansCheck (coreDie o.core) asid [(a.addr, 4, true, true), (a.addr + 128, a.len, true, false)] with
  | some (va, .miss) => s.wantFrame asid va
  | some (va, .fail c) => s.faultCopy i o .c a va c
  | _ =>
    let cas := BitVec.ofNat 128 (a.d2.toNat + 2 ^ 32 * (a.d2 + 1).toNat)
    let first := { copyWord asid a.addr 0 o.wg 1 true (s.onAlias asid a.addr) with data := cas }
    (s.modOp i fun o => { o with status := .started, acc := [first], aux := [0, 0] }).engineAtomic i [0] .cas false

/-- A copy command leaves its queue (R262, R264, R280, R404): refused at once; else when its snapshot has performed at its scope it
checks its pages and starts. -/
def State.startCopy (s : State) (i : Nat) (o : Op) (k : CopyKind) (a : CopyArgs) : State :=
  match s.wgs[o.wg]? with
  | none => s
  | some g =>
    match s.grids[g.grid]? with
    | none => s
    | some gr =>
      if copyRefused k a (gr.lrec.scr * 65536) then s.refuseCopy i o k a
      else if !s.snapAt o o.sc then s
      else if 2 ^ 52 ≤ a.addr then s.faultCopy i o k a a.addr 0x14
      else
        let asid := gr.asid
        match k with
        | .x => s.startScatter i o a asid
        | .c => s.startCommit i o a asid
        | .g =>
          let rows := a.gather g
          match s.spansCheck (coreDie o.core) asid (rows.filterMap fun r => r.1.map fun va => (va, r.2.2, false, false)) with
          | some (va, .miss) => s.wantFrame asid va
          | some (va, .fail c) => s.faultCopy i o k a va c
          | _ =>
            let acc := rows.flatMap fun r => match r.1 with
              | some va => s.pieceWords asid o.wg va r.2.1 r.2.2 false
              | none => (s.pieceWords asid o.wg 0 r.2.1 r.2.2 false).map fun x => { x with space := Space.scratch }
            s.modOp i fun o => { o with status := .started, acc := acc, aux := [0, 0] }
        | k =>
          let ps := a.pieces k
          let write := !k.isLoad
          match s.spansCheck (coreDie o.core) asid (ps.map fun p => (p.1, p.2.2, write, false)) with
          | some (va, .miss) => s.wantFrame asid va
          | some (va, .fail c) => s.faultCopy i o k a va c
          | _ =>
            let (rx, dropped) := if k.isLoad then s.receivers o a else ([], 0)
            let acc := ps.flatMap fun p => s.pieceWords asid o.wg p.1 p.2.1 p.2.2 write
            s.modOp i fun o => { o with status := .started, acc := acc, aux := [dropped, 0] ++ rx }

/-- ENGINE_COMMAND_START (R262). -/
def execEngineCommandStart (op : Nat) (s : State) : Out :=
  .next (match s.ops[op]? with
    | some o => match o.kind, o.status with
      | .cmd (.copy k a), .issued => s.startCopy op o k a
      | .cmd c, .issued => s.startMatrix op o c
      | _, _ => s
    | none => s)

/-! ### The words move -/

/-- A word lands in the scratchpad of a running workgroup, with its mark (R394). -/
def State.landWord (s : State) (wg off : Nat) (v : Nat) (psn : Bool) : State :=
  s.modWg wg fun (g : Workgroup) =>
    if g.status == .running then
      { g with scratch := Memory.setN g.scratch off 4 v, scrPsn := Marks.put g.scrPsn (off / 4) psn }
    else g

/-- A loaded word lands in the issuing workgroup and in every receiver (R285). -/
def State.landCopy (s : State) (i j : Nat) (o : Op) (a : Access) (v : Nat) (psn : Bool) : State :=
  ((o.wg :: o.aux.drop 2).foldl (fun s g => s.landWord g a.scr v psn) s).modAcc i j fun a => { a with stage := .done }

/-- The word that a store direction sends. -/
def State.scratchWord (s : State) (a : Access) : Nat × Bool :=
  match s.wgs[a.scrWg]? with
  | some g => (Memory.getN g.scratch a.scr 4, Marks.has g.scrPsn (a.scr / 4))
  | none => (0, false)

/-- CPYC after its first step: matched, the data words follow; else the command ends MISMATCH (R282, R406). -/
def State.afterVersion (s : State) (i : Nat) (o : Op) (a : CopyArgs) (x : Access) : State :=
  if x.psn ≠ 0 then
    let s := match s.warps[o.warp]? with
      | some w => s.logMemWarp w 1 a.addr 2 (BitVec.ofNat 32 (2 ^ (a.addr / 4 % 32)))
      | none => s
    s.endCopy i o .c a 1 0 0 [{ op := i }] (some (BitVec.allOnes 32))
  else if x.data.toNat % 2 ^ 32 = a.d2.toNat then
    let data := (a.pieces .c).flatMap fun p => s.pieceWords x.asid o.wg p.1 p.2.1 p.2.2 true
    s.modOp i fun o => { o with acc := [{ x with stage := .done }] ++ data }
  else s.endCopy i o .c a 1 0 0 [{ op := i }] (some (BitVec.ofNat 32 x.data.toNat))

/-- CPYC's second step, once every data word has performed: the version word becomes W + 2. -/
def State.secondVersion (s : State) (i : Nat) (o : Op) (a : CopyArgs) (x : Access) : State :=
  let last := { x with part := 2, stage := Stage.held, data := BitVec.ofNat 128 (a.d2 + 2).toNat, psn := 0 }
  (s.modOp i fun o => { o with acc := o.acc ++ [last] }).engineAtomic i [o.acc.length] (.atom .xchg) true

/-- The running counts of CPYX: dropped tokens, redirected tokens. -/
def Op.count (o : Op) (n : Nat) : Op := { o with aux := o.aux.modify n (· + 1) }

/-- A token takes its slot: its words go to the bin. A redirected token's slot lies in a bin that no check before round 1 covered unless a token
targeted it: the check is made here, and a failure ends as R402 has it, with nothing written (notes/assumptions/24.md). -/
def State.writeToken (s : State) (i j : Nat) (o : Op) (a : CopyArgs) (x : Access) (b : Bin) (slot : Nat) : State :=
  let done := s.modAcc i j fun x => { x with stage := .done }
  let at_ := b.base + slot * a.rowb
  match if x.part = 0 then none else s.binCheck (coreDie o.core) x.asid a { base := at_, cap := 1 } with
  | some (va, .miss) => s.wantFrame x.asid va
  | some (va, .fail c) => done.logLate o va c 2
  | _ => done.modOp i fun o => { o with acc := o.acc ++ s.pieceWords x.asid o.wg at_ x.scr a.rowb true }

/-- A token's slot has come back (R286): written, redirected (held again, as part 1), or dropped. -/
def State.placeToken (s : State) (i j : Nat) (o : Op) (a : CopyArgs) (x : Access) : State :=
  let e := (x.va - a.addr) / 16
  let b := o.bin e
  let slot := x.data.toNat % 2 ^ 32
  let drop := (s.modAcc i j fun x => { x with stage := .done }).modOp i fun o => o.count 0
  if x.psn ≠ 0 then drop
  else if slot < b.cap then s.writeToken i j o a x b slot
  else if x.part = 0 ∧ e < a.nb then (s.modAcc i j fun x => { x with stage := .held, part := 1, data := 0 }).modOp i fun o => o.count 1
  else drop

/-- Round 2 of CPYX: once every round-1 request has returned, the redirected tokens form one request (R286). -/
def State.secondRound (s : State) (i : Nat) (a : CopyArgs) : State :=
  match s.ops[i]? with
  | none => s
  | some o =>
    let toks := o.acc.take a.rows
    if toks.any (fun x => x.part == 0 && x.stage != .done) then s
    else
      let js := (List.range a.rows).filter fun t => ((toks[t]?).map Access.stage) == some .held
      match toks.head? with
      | some x => if js.isEmpty then s else s.counterRequest i x.asid (a.addr + 16 * a.nb + 12) js
      | none => s

/-- A word that a copy command has read: a load direction's lands, a word of CPYX's table is kept. -/
def State.gotWord (s : State) (i j : Nat) (o : Op) (k : CopyKind) (x : Access) (v : Nat) (psn : Bool) : State :=
  if k = .x then s.modAcc i j fun x => { x with stage := .done, data := BitVec.ofNat 128 v } else s.landCopy i j o x v psn

/-- A held word of a copy command reaches home (R280). -/
def State.copyHeld (s : State) (i j : Nat) (o : Op) (k : CopyKind) (x : Access) : State :=
  let s := s.onWay x
  let (d, q) := s.scratchWord x
  match s.arrival (coreDie o.core) x x.write false with
  | .waits => s
  | .away c y v =>
    s.sendRemote i j o (if x.write then { x with data := BitVec.ofNat 128 d, psn := BitVec.ofNat 4 q.toNat } else x)
      (if x.write then .store else .load) c y v
  | .late c =>
    let s := s.logLate o x.va c (if x.write then 2 else 1)
    if x.write then s.modAcc i j fun x => { x with stage := .done } else s.gotWord i j o k x 0 true
  | .go key y v =>
    if x.write then
      ((s.writeAt key y v 4 15 d q.toNat).invalidate y v none).modAcc i j fun x => { x with stage := .done }
    else
      let (v', p) := if x.isAlias then (Memory.getN s.mem key 4, Marks.read s.memPsn key 4) else s.copyRead o x
      (s.sliceFill key y v).gotWord i j o k x v' (p != 0)

/-- Whether an access of a copy command is a step on a version word or a counter. -/
def atomicWord (o : Op) (k : CopyKind) (a : CopyArgs) (j : Nat) (x : Access) : Bool :=
  match k with
  | .c => x.part != 0
  | .x => decide (j < a.rows) && !o.aux.isEmpty
  | _ => false

/-- A word of a copy command served at home (R280). -/
def State.copyAtHome (s : State) (i j : Nat) (o : Op) (k : CopyKind) (a : CopyArgs) (x : Access) : State :=
  if x.space = .scratch then (if x.stage == .held then s.landCopy i j o x 0 false else s)
  else match x.stage with
    | .held =>
      if !atomicWord o k a j x then s.copyHeld i j o k x
      else match k with
        | .x => if x.part = 1 then s.secondRound i a else s.engineAtomic i (atomGroup o j x (.atom .add)) (.atom .add) false
        | _ => s.engineAtomic i [j] (if x.part = 1 then .cas else .atom .xchg) (x.part != 1)
    | .fetched =>
      if atomicWord o k a j x then
        match k with
        | .c => if x.part = 1 then s.afterVersion i o a x else s.modAcc i j fun x => { x with stage := .done }
        | _ => (s.placeToken i j o a x).secondRound i a
      else s.gotWord i j o k x (x.data.toNat % 2 ^ 32) (x.psn != 0)
    | _ => s

/-- A word that a copy command reads, taken from a copy that R121 permits: the core's, or the cluster cache's. -/
def State.copyFrom (s : State) (i j : Nat) (o : Op) (k : CopyKind) (x : Access) (src : Nat → Option (Byte × Bool)) : State :=
  if x.stage = .held ∧ !x.write ∧ x.space = .global ∧ !x.isAlias ∧ !bypasses o x then
    match Sys2Proof.Machine.gather src x.va 4 with
    | some (v, p) => s.gotWord i j o k x v (p != 0)
    | none => s
  else s

/-- HOME_REQUEST (R122): an access of a memory instruction or of a copy command reaches its home slice and is served there. -/
def execHomeRequest (op acc : Nat) (s : State) : Out :=
  .next (match s.ops[op]? with
    | none => s
    | some o => match o.acc[acc]?, o.kind with
      | some a, .mem act _ _ _ _ => s.memAtHome op acc o a act
      | some a, .cmd (.copy k x) => if o.status == .started then s.copyAtHome op acc o k x a else s
      | _, _ => s)

/-- A copy command that runs takes held words that it reads from copies that R121 permits. -/
def State.copyWords (s : State) (op : Nat) (js : List Nat) (src : Op → Access → Nat → Option (Byte × Bool)) : State :=
  match s.ops[op]? with
  | none => s
  | some o => match o.kind, o.status with
    | .cmd (.copy k _), .started => js.foldl (fun s j => match o.acc[j]? with
        | some x => s.copyFrom op j o k x (src o x)
        | none => s) s
    | _, _ => s

/-- LOAD_VALUE_FIXED (R225, R395); for a copy command, words found in the core's own copies. -/
def execLoadValueFixed (op : Nat) (s : State) : Out :=
  .next ((s.fixLoad op).copyWords op (List.range (((s.ops[op]?).map fun o => o.acc.length).getD 0)) fun o x => s.coreByte o.core x.asid)

/-- CLUSTER_CACHE_ARRIVAL (R112, R119, R121). -/
def execClusterCacheArrival (op acc : Nat) (s : State) : Out :=
  .next ((s.memAtCluster op acc).copyWords op [acc] fun o x => s.clusterByte o.core x.asid)

/-- Every word is done: CPYC's second step goes out, CPYX with its table read makes its checks; else the command ends. -/
def State.finishCopy (s : State) (i : Nat) (o : Op) (k : CopyKind) (a : CopyArgs) : State :=
  if !(o.acc.all fun x => x.stage == .done) then s
  else
    let aux := o.aux.getD 0 0
    let novf := o.aux.getD 1 0
    match k with
    | .c => match o.acc.getLast?, o.acc.head? with
      | some l, some x => if l.part = 2 then s.endCopy i o k a 0 0 0 [{ op := i }] none else s.secondVersion i o a x
      | _, _ => s
    | .x => if o.aux.isEmpty then s.firstRound i o a else s.endCopy i o k a (if aux = 0 ∧ novf = 0 then 0 else 2) aux novf [{ op := i }] none
    | .ld | .sld => s.endCopy i o k a 0 aux 0 [{ op := i }] none
    | _ => s.endCopy i o k a 0 0 0 [{ op := i }] none

/-- COPY_COMMAND_COMPLETE (R262, R284): every word has performed. -/
def execCopyCommandComplete (op : Nat) (s : State) : Out :=
  .next (match s.ops[op]? with
    | some o => match o.kind, o.status with
      | .cmd (.copy k a), .started => s.finishCopy op o k a
      | _, _ => s
    | none => s)

end Sys2Proof.Machine
end

