-- ==== Sys2Proof/Machine/MsgEvents.lean ====
section
/-! DEFINITION. AMSEND (R251), messages on their way (R321, R326, R407, R408), completion notices (R327), handler warps (R252). -/

namespace Sys2Proof.Machine

open Sys2Proof

/-! ### The start of a warp (R61, R63) -/

/-- A warp at its first instruction: the named fields, everything else as R61 and R63 state. -/
def Warp.fresh (wg num slot : Nat) (role : Role) (cls desc allot : Nat) (pc : PC) (fmt : BitVec 16) (arg : BitVec 52) : Warp :=
  { wg := wg, num := num, slot := slot, pc := pc, fmt := fmt, emask := BitVec.allOnes 32, role := role, cls := cls, desc := desc, allot := allot
    v := List.replicate (8 * allot) LaneReg.zero
    s := [arg.setWidth 32, BitVec.ofNat 32 (arg.toNat / 2 ^ 32)] ++ List.replicate 62 0
    p := List.replicate 7 0
    keys := List.replicate 15 {}
    carry := List.replicate 4 { h := List.replicate 32 0, g := List.replicate 32 0x3F800000, hor := 0, psn := 0 } }

/-- Whether a workgroup holds its place on its core: placed or running. -/
def Workgroup.onCore (g : Workgroup) : Bool := g.status == .placed || g.status == .running

/-- The warps that occupy slots of a core. -/
def State.coreWarps (s : State) (k : Nat) : List Warp :=
  s.warps.filter fun w => w.status == .running && (match s.wgs[w.wg]? with
    | some g => g.core == k && g.onCore
    | none => false)

/-- The free warp slots of a core, ascending (R39). -/
def State.freeSlots (s : State) (k : Nat) : List Nat :=
  (List.range 48).filter fun n => !((s.coreWarps k).any fun w => w.slot == n)

/-! ### AMSEND -/

/-- The sender's TGT word with its own %warp (R252). -/
def Ctx.ownTgt (c : Ctx) : Word :=
  BitVec.ofNat 32 (c.w.index c.gr.lrec % 64 * 2 ^ 10 + c.g.die * 2 ^ 8 + c.g.cl * 2 ^ 4 + c.g.wg)

/-- AMSEND (R251, R408): the message waits for its snapshot in the sender's die. -/
def execAmsend (x y : Fin 64) (h : Fin 16) (k c : Fin 16) (s : State) : Out :=
  issue (.amsend x y h k c) s fun t =>
    match t.w.produceWait k with
    | some q => s.waitFor s.cur q
    | none =>
      let d := coreDie t.g.core
      let tgt := t.w.sreg x
      let hi := t.w.sreg (x.val + 1)
      let pay := (List.range 8).map fun n => t.w.sreg (y.val + n)
      let sc := (Scope.ofCode (tgtScope hi)).getD .sys
      let (s1, i) := s.issueOp s.cur t.w t.g.core (.amsend tgt hi h pay) sc k c []
      let s2 := match s.senderReason t true tgt hi sc with
        | some r => (s1.logDiscard d true (some s.cur) t.gr.asid tgt hi r).completeOp i
        | none =>
          let m : Msg := { body := .active h pay t.ownTgt (BitVec.ofNat 32 t.gr.lrec.gridNo), op := some i, warp := some s.cur,
                           asid := t.gr.asid, die := d, core := t.g.core, tgt := tgt, tgthi := hi, sc := sc, at_ := 2 * i + 1 }
          { s1 with msgs := s1.msgs ++ [m] }
      s2.modWarp s.cur fun w => w.next (.amsend x y h k c)

/-! ### Sending (R321, R326) -/

/-- The grid of a message's sender, when it is of this package. -/
def State.senderGrid (s : State) (x : Msg) : Option Nat :=
  match x.warp with
  | none => none
  | some i => ((s.warps[i]?).bind fun w => s.wgs[w.wg]?).map Workgroup.grid

/-- The grid that a message names in this package: the sender's own, or the placed one of R326. -/
def State.targetGrid (s : State) (x : Msg) : Option Nat :=
  match s.senderGrid x with
  | some gi => if ((s.grids[gi]?).map fun g => g.lrec.gridNo) = some (tgtGrid x.tgthi) then some gi else s.placedGrid x.asid (tgtGrid x.tgthi)
  | none => s.placedGrid x.asid (tgtGrid x.tgthi)

/-- Whether a message's own grid is its target. -/
def State.ownGrid (s : State) (x : Msg) : Bool := (s.senderGrid x).isSome && s.senderGrid x == s.targetGrid x

/-- Whether a message's snapshot was empty at issue: a splice has none. -/
def State.noSnap (s : State) (x : Msg) : Bool :=
  match x.op with
  | some i => ((s.ops[i]?).map fun o => o.snap.isEmpty).getD true
  | none => true

/-- Whether a held message may be sent: its snapshot has performed at its scope (R151), and every message of its core without a snapshot that
was issued before it has gone, when it has none itself (R321). -/
def State.maySend (s : State) (m : Nat) (x : Msg) : Bool :=
  x.stage == .held &&
    (match x.op with
    | some i => match s.ops[i]? with
      | some o => s.snapAt o o.sc
      | none => true
    | none => true) &&
    !(s.noSnap x && (s.unsentBefore x.core x.at_ ||
      (s.msgs.take m).any fun y => y.stage == .held && y.core == x.core && y.at_ == x.at_ && y.warp.isSome))

/-- The tracking point of a member (R327): the store queue of its core, or the home slice its requests have gone to; a member of another package
by its own reference. -/
def State.trackPoint (s : State) (m : Member) : Nat × Nat × Nat :=
  match m.chip, s.ops[m.op]? with
  | some c, _ => (2, c, m.op)
  | none, some o => match o.acc.find? fun a => a.stage == .atCl || a.stage == .remote with
    | some a => (1, homeDie a.va, homeSlice (s.die (homeDie a.va)) a.va)
    | none => (0, 0, o.core)
  | none, none => (0, 0, 0)

/-- The messages of a splice to another package on a protocol (R327): AFL-2 holds six references to a flit after the first and at most 16 flits;
each with its flits. -/
def State.spliceMsgs (s : State) (m : Nat) (x : Msg) (set : List Member) (afl3 : Bool) : List (Nat × FabMsg) :=
  let ref := fun (ms : List Member) => ms.map fun y => (y.chip.getD s.chip, y.op)
  let points := (set.map s.trackPoint).eraseDups
  let n := if afl3 then 1 else max 1 ((points.length + 89) / 90)
  (List.range n).map fun j =>
    let ps := if afl3 then points else (points.drop (90 * j)).take 90
    let part := set.filter fun y => ps.contains (s.trackPoint y)
    let flits := if afl3 then (if set.isEmpty then 1 else (Config.nfm1 s.outbox.length).toNat + 1) else 1 + (ps.length + 5) / 6
    (flits, .splice x.asid x.tgt x.tgthi x.sc (ref part) m j n)

/-- A message goes to another package on a group (R327, R328): an active message is gone, a splice stays in its store until it has entered a
receive queue (R235). -/
def State.sendAway (s : State) (m : Nat) (x : Msg) (g chip : Nat) : State :=
  match x.body with
  | .splice set _ =>
    ((s.spliceMsgs m x set ((s.reg (lgStat g)).getLsbD 29)).foldl (fun s p => s.sendAs g chip s.chip p.1 p.2) s).modMsg m
      fun x => { x with stage := .away, toChip := some chip }
  | .active h pay snd gr =>
    (s.send g chip (.active x.asid x.tgt x.tgthi x.sc h pay snd gr (x.op.getD 0))).modMsg m fun x => { x with stage := .gone }

/-- A message enters the fabric of this package. -/
def State.sendHome (s : State) (m : Nat) : State :=
  { s.modMsg m fun x => { x with stage := .sent, sentAt := s.sends } with sends := s.sends + 1 }

/-- Reason 4 of R407 for a target of another grid in this package. -/
def State.outsideScope (s : State) (x : Msg) : Bool :=
  match s.targetGrid x, x.warp.bind fun i => s.warps[i]? with
  | some gi, some w =>
    match s.findWg gi (tgtDie x.tgt) (tgtCl x.tgt) (tgtWg x.tgt) with
    | some j => match s.wgs[j]? with
      | some g => !sameInstance x.sc x.core w.wg g.core j
      | none => false
    | none => false
  | _, _ => false

/-- The die a message travels to (R321): that of its target; where none is found, the die named. -/
def State.tgtDieOf (s : State) (x : Msg) : Nat :=
  match s.targetGrid x with
  | none => if x.warp.isSome then x.die else tgtDie x.tgt
  | some gi => match (s.findWg gi (tgtDie x.tgt) (tgtCl x.tgt) (tgtWg x.tgt)).bind fun j => s.wgs[j]? with
    | some g => coreDie g.core
    | none => match s.wgs.find? fun g => g.grid == gi with
      | some g => coreDie g.core
      | none => tgtDie x.tgt

/-- A notice to another package about an operation of package src, once; one that its group has lost is sent again, one without a route waits
for it (R327, R421). -/
def State.notifyChip (s : State) (src op : Nat) (sc : Scope) (chip : Nat) : State :=
  match s.route chip with
  | .group g =>
    if s.outbox.any fun m => m.chip == chip && m.src == src && m.body == .notice op sc && !m.lost then s
    else s.sendAs g chip src (msgFlits s.outbox.length (.notice op sc)) (.notice op sc)
  | _ => s

/-- A splice forwarded to another package tells it what this one knows of the members of third packages (R143, R327). -/
def State.passNotices (s : State) (chip : Nat) (set : List Member) : State :=
  set.foldl (fun s m => match m.chip with
    | some c => ((s.notices.filter fun n => n.2.1 == some c && n.2.2.1 == m.op).map fun n => n.2.2.2).eraseDups.foldl (fun s k =>
        match Scope.ofCode k with
        | some sc => s.notifyChip c m.op sc chip
        | none => s) s
    | none => s) s

/-- A message whose map entry names its chip: delivered in this package, sent to another, or discarded (R326, R407, R421). A die that is isolated
reaches no other. -/
def State.sendTo (s : State) (m : Nat) (x : Msg) (chip : Nat) : State :=
  if chip = s.chip then
    if s.outsideScope x then s.discardMsg m x.die 4
    else if s.cutOff x.die (s.tgtDieOf x) then s.discardMsg m x.die 5 else s.sendHome m
  else if x.sc ≠ .sys then s.discardMsg m x.die 4
  else if (s.die x.die).isolated then s.discardMsg m x.die 5
  else if s.linkHeld x.die 4 then s
  else match s.route chip with
    | .group g =>
      let s := s.sendAway m x g chip
      match x.body with
      | .splice set _ => s.passNotices chip set
      | .active .. => s
    | .waits _ => s
    | _ => s.discardMsg m x.die 5

/-- MESSAGE_SEND (R321, R326, R407, R421): to the own grid at once, else where the gang map and the routes lead. -/
def execMessageSend (m : Nat) (s : State) : Out :=
  .next (match s.msgs[m]? with
    | none => s
    | some x =>
      if !s.maySend m x then s
      else if s.ownGrid x then (if s.cutOff x.die (s.tgtDieOf x) then s.discardMsg m x.die 5 else s.sendHome m)
      else
        let t := s.gangRead x.asid (tgtGrid x.tgthi)
        match s.gangChip x.asid (tgtGrid x.tgthi) with
        | .wait => t
        | .unreadable => t.discardMsg m x.die 2
        | .chip c => (t.keepGang x.asid (tgtGrid x.tgthi) c).sendTo m x c)

/-! ### Arrival -/

/-- The warp of a workgroup with a %warp. -/
def State.findWarp (s : State) (wg num : Nat) : Option Nat :=
  s.warps.findIdx? fun w => w.wg == wg && w.num == num && w.handler.isNone

/-- Whether a workgroup has ended. -/
def Workgroup.hasEnded (g : Workgroup) : Bool := g.status == .ended || g.status == .terminated

/-- The workgroup that a message names, or the reason that the target package or die finds (R407, R408). -/
def State.tgtOf (s : State) (x : Msg) : Except Nat Nat :=
  match s.targetGrid x with
  | none => .error 2
  | some gi => match s.grids[gi]? with
    | none => .error 2
    | some gr =>
      if reason1 x.body.isActive x.tgt x.tgthi gr.lrec then .error 1
      else match s.findWg gi (tgtDie x.tgt) (tgtCl x.tgt) (tgtWg x.tgt) with
        | none => .error 1
        | some j => match s.wgs[j]?, x.body with
          | some g, .active h _ _ _ =>
            if g.hasEnded then .error 3 else if gr.lrec.handlers.getD h 0 = 0 then .error 6 else .ok j
          | some _, .splice _ _ => match (s.findWarp j (tgtWarp x.tgt)).bind fun i => s.warps[i]? with
            | some w => if w.status = .running then .ok j else .error 3
            | none => .error 1
          | none, _ => .error 1

/-- Whether two messages have one source (R321). -/
def sameSource (x y : Msg) : Bool := x.chip == y.chip && x.core == y.core

/-- The receive queue of a splice's target has room (R236). -/
def State.hasRoom (s : State) (x : Msg) : Bool :=
  match s.tgtOf x with
  | .ok j => match (s.findWarp j (tgtWarp x.tgt)).bind fun i => s.warps[i]? with
    | some w => decide (w.recvq.length < 8)
    | none => true
  | .error _ => true

/-- Whether a link on a message's way to its target's die retrains (R416). -/
def State.msgHeld (s : State) (x : Msg) : Bool := s.linkHeld (if x.chip.isSome then 4 else x.die) (s.tgtDieOf x)

/-- Whether a message of another package goes to an isolated die, which it cannot reach (R421). -/
def State.barred (s : State) (x : Msg) : Bool := x.chip.isSome && (s.die (s.tgtDieOf x)).isolated

/-- SPLICE_ARRIVAL (R141, R236, R321, R327): the splice, once all its messages are there, enters the queue, waits while it is full, or is
discarded; another package's sender is told. -/
def execSpliceArrival (msg : Nat) (s : State) : Out :=
  .next (match s.msgs[msg]? with
    | none => s
    | some x => match x.body, x.stage with
      | .splice set tag, .sent =>
        let before := fun (y : Msg) =>
          y.stage == .sent && !y.body.isActive && decide (y.sentAt < x.sentAt) && sameSource x y && s.tgtDieOf y == s.tgtDieOf x &&
            (s.hasRoom y || (y.tgt == x.tgt && y.tgthi == x.tgthi))
        if s.msgs.any before || x.parts != 0 || s.msgHeld x then s
        else if s.barred x then s.discardMsg msg (s.tgtDieOf x) 5
        else match s.tgtOf x with
          | .error r => s.discardMsg msg (s.tgtDieOf x) r
          | .ok j => match s.findWarp j (tgtWarp x.tgt) with
            | none => s
            | some i =>
              if s.hasRoom x then
                ((s.modWarp i fun w => { w with recvq := w.recvq ++ [{ set := set, sc := x.sc, tag := tag }] }).modMsg msg
                  fun x => { x with stage := .gone }).ackMsg x
              else s
      | _, _ => s)

/-- The active messages that a die buffers (R328). -/
def State.buffered (s : State) (d : Nat) : Nat := (s.msgs.filter fun y => y.stage == .buffered && s.tgtDieOf y == d).length

/-- ACTIVE_MESSAGE_ARRIVAL (R321, R328, R408). -/
def execActiveMessageArrival (msg : Nat) (s : State) : Out :=
  .next (match s.msgs[msg]? with
    | none => s
    | some x =>
      let d := s.tgtDieOf x
      let before := fun (y : Msg) =>
        y.stage == .sent && y.body.isActive && decide (y.sentAt < x.sentAt) && sameSource x y && s.tgtDieOf y == d
      if x.stage ≠ .sent ∨ !x.body.isActive ∨ s.msgHeld x ∨ s.msgs.any before ∨ (256 ≤ s.buffered d ∧ !s.barred x) then s
      else if s.barred x then s.discardMsg msg d 5
      else match s.tgtOf x with
        | .error r => s.discardMsg msg d r
        | .ok j =>
          { s.modMsg msg fun x => { x with stage := .buffered, tgtWg := some j, sentAt := s.sends } with sends := s.sends + 1 })

/-! ### Completion notices (R142, R327) -/

/-- The packages that this one has sent a splice with a member to. -/
def State.spliceChips (s : State) (chip : Option Nat) (op : Nat) : List Nat :=
  (s.msgs.filterMap fun x => match x.body with
    | .splice set _ => if set.any fun m => m.op == op && m.chip == chip then x.toChip else none
    | .active .. => none).eraseDups

/-- COMPLETION_NOTICE (R327, R397, R421): an operation has performed at a scope, and a die that holds references to it is told, unless one of the
two is isolated; so is every other package that holds one and that a route reaches. -/
def execCompletionNotice (die : Fin 4) (op : Nat) (sc : Scope) (s : State) : Out :=
  .next (
    if s.opLevel op < sc.code ∨ s.ops.length ≤ op ∨ s.heldQueue op then s
    else
      let n : Nat × Option Nat × Nat × Nat := (die.val, none, op, sc.code)
      let d := s.noticeDie none op
      let s := if s.notices.contains n || s.cutOff d die.val || s.linkHeld d die.val then s else { s with notices := n :: s.notices }
      if (s.die d).isolated || s.linkHeld d 4 then s else (s.spliceChips none op).foldl (fun s c => s.notifyChip s.chip op sc c) s)

/-! ### Handler warps (R252) -/

/-- The handler indices that no running handler warp of a workgroup holds. -/
def State.freeHandlers (s : State) (wg : Nat) : List Nat :=
  (List.range 4).filter fun q => !(s.warps.any fun w => w.wg == wg && w.status == .running && w.handler == some q)

/-- The slot of a handler warp: a free one above those of its workgroup's own warps, by which R341 tells it, where there is one, else the lowest
free one (R252 asks for a free slot; DESIGN CHOICE, notes/assumptions/91.md). -/
def State.handlerSlot (s : State) (k wg : Nat) : Option Nat :=
  let own := s.warps.filter fun w => w.wg == wg && w.handler.isNone
  let free := s.freeSlots k
  match free.find? fun n => own.all fun w => decide (w.slot < n) with
  | some n => some n
  | none => free.head?

/-- A handler warp as R252 makes it. -/
def handlerWarp (wg q born slot : Nat) (pc : PC) (r : Record) (pay : List Word) (snd sndGrid : Word) : Warp :=
  let w := Warp.fresh wg r.nwarp slot .general 3 0 1 pc r.fmt r.argPtr
  { w with handler := some q, born := born
           s := w.s.take 2 ++ pay.take 8 ++ List.replicate (8 - pay.length) 0 ++ [snd, sndGrid] ++ List.replicate 52 0 }

/-- Whether a workgroup is stopped by the debug logic (R347, R350). -/
def State.stopped (s : State) (wi : Nat) (g : Workgroup) : Bool :=
  let c := s.cluster (coreCl g.core)
  (c.dbg == .stopped || c.dbg == .stopping) && c.dbgWg == wi

/-- HANDLER_WARP_START (R151, R252, R347): the oldest message of its workgroup starts a handler warp when a slot, a granule and a handler
index are free; its start is a consumption at the message's scope. -/
def execHandlerWarpStart (msg : Nat) (s : State) : Out :=
  .next (match s.msgs[msg]? with
    | none => s
    | some x => match x.stage, x.body, x.tgtWg with
      | .buffered, .active h pay snd sg, some j =>
        if s.msgs.any fun y => y.stage == .buffered && y.tgtWg == some j && decide (y.sentAt < x.sentAt) then s
        else match s.wgs[j]? with
          | none => s
          | some g => match s.grids[g.grid]? with
            | none => s
            | some gr =>
              if g.hasEnded then s.discardMsg msg (coreDie g.core) 3
              else if g.status ≠ .running ∨ s.stopped j g then s
              else match s.handlerSlot g.core j, s.freeHandlers j with
                | some slot, q :: _ =>
                  if s.freeGranules j gr.lrec = 0 then s
                  else
                    let w := handlerWarp j q s.warps.length slot (gr.lrec.handlers.getD h 0) gr.lrec pay snd sg
                    let s := s.consumed g.core x.sc []
                    let s := { s with warps := s.warps ++ [w] }
                    (s.modMsg msg fun x => { x with stage := .gone }).ackMsg x
                | _, _ => s
      | _, _, _ => s)

end Sys2Proof.Machine
end

