-- ==== Sys2Proof/Machine/PoolEvents.lean ====
section
/-! DEFINITION. Pool loads: MCLD, holds of a home slice, the one read, the fills (R152, R248 to R250, R404, R405). -/

namespace Sys2Proof.Machine

open Sys2Proof

/-- The fields of MCLD's control word (R248). -/
def mcDoff (w : Word) : Nat := bitsOf w 16 16
def mcLines (w : Word) : Nat := bitsOf w 7 9
def mcScope (w : Word) : Option Scope := Scope.ofCode (bitsOf w 4 3)

/-- MCLD (R248): it goes to the home slice of its address. -/
def execMcld (x y : Fin 64) (pool : Fin 16) (k c : Fin 16) (off : Option Word) (s : State) : Out :=
  issue (.mcld x y pool k c off) s fun t =>
    match t.w.produceWait k with
    | some q => s.waitFor s.cur q
    | none =>
      let ctl := t.w.sreg y
      let kind : OpKind := .mcld (t.w.scalarSum x (litOff off)) y ctl pool
      (s.issueOp s.cur t.w t.g.core kind ((mcScope ctl).getD .wg) k c []).1.modWarp s.cur fun w => w.next (.mcld x y pool k c off)

/-- A workgroup's entry in a pool's directory. -/
def Grid.member (g : Grid) (pool wg : Nat) : Option PoolMember := (g.pool pool).members.find? fun m => m.wg == wg

/-- The refusals of R248. -/
def mcldRefused (addr : Nat) (ctl : Word) (m : Option PoolMember) : Bool :=
  bitsOf ctl 0 4 != 0 || mcLines ctl == 0 || decide (256 < mcLines ctl) || (mcScope ctl).isNone || addr % 128 != 0 ||
    (match m with
    | some m => decide (m.size < mcDoff ctl + mcLines ctl)
    | none => true)

/-- MCLD_ARRIVAL (R248, R249, R404): refusals first, then the access check, then the service of its home slice; MCLDs of one core to
one slice arrive in the order of their issue (R321). -/
def execMcldArrival (op : Nat) (s : State) : Out :=
  .next (match s.ops[op]? with
    | none => s
    | some o => match o.kind, o.status, s.wgs[o.wg]? with
      | .mcld addr _ ctl pool, .issued, some g =>
        let before := fun (p : Op) => match p.kind with
          | .mcld a _ _ _ => p.status == .issued && p.core == o.core && homeDie a == homeDie addr &&
              homeSlice (s.die (homeDie a)) a == homeSlice (s.die (homeDie addr)) addr
          | _ => false
        if (s.ops.take op).any before then s
        else match s.grids[g.grid]? with
          | none => s
          | some gr =>
            let m := gr.member pool o.wg
            if mcldRefused addr ctl m then s.mcldDone op (mcldStatus 6 0 0)
            else if 2 ^ 52 ≤ addr then (s.logCopy o addr 0x14 0x28).mcldDone op (mcldStatus 7 0 0)
            else match s.spanCheck gr.asid addr (128 * mcLines ctl) false false (coreDie o.core) with
              | some (va, .miss) => s.wantFrame gr.asid va
              | some (va, .fail c) => (s.logCopy o va c 0x28).mcldDone op (mcldStatus 7 0 0)
              | _ =>
                let s := (s.modOp op fun o => { o with status := .started }).enterHold op o.wg g.grid pool gr.asid addr (mcLines ctl)
                  ((m.map PoolMember.tmo).getD 0)
                s.settleHolds s.holdFuel
      | _, _, _ => s)

/-- POOL_HOLD_TIMEOUT (R246, R248): TMO units of 16 ns, within 1 %. -/
def execPoolHoldTimeout (hold : Nat) (s : State) : Out :=
  .next (match s.holds[hold]? with
    | some h =>
      if h.isOpen ∧ !h.free ∧ 99 * 256 * h.tmo ≤ 100 * (s.now - h.startAt) then
        let s := (s.endHold hold true).admitQueued hold
        s.settleHolds s.holdFuel
      else s
    | none => s)

/-- The lines of a pool read that lie in another package, as accesses of 16 bytes. -/
def State.awayPieces (s : State) (j : PoolJob) : List Access :=
  (List.range (8 * j.nlines)).filterMap fun i =>
    let va := j.va + 16 * i
    match s.place j.asid va with
    | .foreign _ _ _ => some { lane := 32, part := 0, space := .global, asid := j.asid, va := va, size := 16, write := false, isAlias := true }
    | _ => none

/-- The read of 16 bytes at home: their cells from `at_` up, and the marks of their words. -/
def State.homePiece (s : State) (asid va at_ : Nat) (acc : List Access) : Bytes × List Nat :=
  let cells := fun (f : Nat → Byte) => (List.range 16).filterMap fun b => if f b = 0 then none else some (at_ + b, f b)
  let marks := fun (p : Nat) => (List.range 4).filterMap fun w => if p / 2 ^ w % 2 = 1 then some (at_ / 4 + w) else none
  match s.place asid va with
  | .here k _ _ =>
    match permCheck (s.probeWord asid va) false false with
    | .fail _ => ([], marks 15)
    | _ => (cells fun b => Memory.get s.mem (k + b), marks (Marks.read s.memPsn k 16))
  | _ => match acc.find? fun a => a.asid == asid && a.va == va with
    | some a => (cells fun b => BitVec.ofNat 8 (a.data.toNat / 256 ^ b), marks a.psn.toNat)
    | none => ([], marks 15)

/-- POOL_READ (R152, R248): job number `hold` is read once, after the snapshots of every MCLD it fills; bytes of another package are
fetched first. -/
def execPoolRead (hold : Nat) (s : State) : Out :=
  .next (match s.jobs[hold]? with
    | none => s
    | some j =>
      let ready := fun (f : Fill) => match s.ops[f.op]? with
        | some o => s.snapAt o o.sc
        | none => true
      if j.read || !(j.fills.all ready) then s
      else match s.ops[j.src]? with
        | none => s
        | some o =>
          let away := s.awayPieces j
          if o.acc.isEmpty && !away.isEmpty then
            let s := s.modOp j.src fun o => { o with acc := away }
            away.zipIdx.foldl (fun s p => match s.place p.1.asid p.1.va with
              | .foreign c x v => s.sendRemote j.src p.2 o p.1 .load c x v
              | _ => s) s
          else if o.acc.any fun a => a.stage == .remote || a.stage == .held then s
          else match s.spanCheck j.asid j.va (128 * j.nlines) false false (homeDie j.va) with
            | some (va, .miss) => s.wantFrame j.asid va
            | _ =>
              let ps := (List.range (8 * j.nlines)).map fun i => s.homePiece j.asid (j.va + 16 * i) (16 * i) o.acc
              let late := (List.range (8 * j.nlines)).findSome? fun i => match s.place j.asid (j.va + 16 * i), permCheck (s.probeWord j.asid (j.va + 16 * i)) false false with
                | .here _ _ _, .fail c => some (j.va + 16 * i, c)
                | .unmapped, _ => some (j.va + 16 * i, 0x10)
                | _, _ => none
              let s := match late with
                | some (va, c) => s.logLate o va c 1
                | none => s
              let s := (List.range j.nlines).foldl (fun s i => match s.place j.asid (j.va + 128 * i) with
                | .here k x v => s.sliceFill k x v
                | _ => s) s
              let full := fun (j : PoolJob) => { j with read := true, data := ps.flatMap Prod.fst, psn := ps.flatMap Prod.snd }
              { s with jobs := s.jobs.modify hold full })

/-- POOL_FILL_LAND (R152, R249, R405): a fill lands at its member's position and its MCLD completes. -/
def execPoolFillLand (op : Nat) (s : State) : Out :=
  .next (match s.jobs.findIdx? fun j => j.read && j.fills.any fun f => f.op == op with
    | none => s
    | some ji => match s.jobs[ji]?, s.ops[op]? with
      | some j, some o => match o.kind, j.fills.find? (fun f => f.op == op), s.wgs[o.wg]? with
        | .mcld _ _ ctl pool, some f, some g =>
          match (s.grids[g.grid]?).bind fun gr => gr.member pool o.wg with
          | none => s
          | some m =>
            let a := 128 * (m.base + mcDoff ctl)
            let n := 128 * j.nlines
            let s := s.modWg o.wg fun (g : Workgroup) =>
              { g with scratch := Memory.paste g.scratch a n j.data
                       scrPsn := (j.psn.map fun k => a / 4 + k).foldl Marks.add
                         (g.scrPsn.filter fun k => !(decide (a / 4 ≤ k) && decide (k < (a + n) / 4))) }
            let gone := fun (j : PoolJob) => { j with fills := j.fills.filter fun f => f.op != op }
            ({ s with jobs := s.jobs.modify ji gone }).mcldDone op (mcldStatus f.kind f.awaited f.included)
        | _, _, _ => s
      | _, _ => s)

end Sys2Proof.Machine
end

