-- ==== Sys2Proof/Machine/Nred.lean ====
section
/-! DEFINITION. Network reductions (R253 to R255, R329, R424) and TIME (R199, R334, R423). -/

namespace Sys2Proof.Machine

open Sys2Proof

/-! ### The combination (R254) -/

/-- A list combined by an operation on 32-bit words; the first value alone is combined with itself. -/
def foldW (f : Word → Word → Word) (xs : List Word) : Word :=
  match xs with
  | [] => 0
  | x :: xs => xs.foldl f (f x x)

/-- .add.f32: the exact sum rounded once. -/
def nredSum (xs : List Word) : Flagged :=
  if !xs.isEmpty && xs.all (fun x => x == 0x80000000) then (0x80000000, 0)
  else match xs with
    | [] => (0, 0)
    | x :: xs => roundOp (groupSum (f32 x) (xs.map fun y => (f32 y, Num.fin false 1 0)) 0)

/-- The combination of a non-empty list of values, with its flags. -/
def nredCombine (z : NredOp) (xs : List (BitVec 64)) : BitVec 64 × Word :=
  let ws := xs.map fun x => x.setWidth 32
  let of := fun (v : Word) => v.setWidth 64
  match z with
  | .addI32 => (of (ws.foldl (· + ·) 0), 0)
  | .addI64 => (xs.foldl (· + ·) 0, 0)
  | .minS32 => (of (foldW sminW ws), 0)
  | .maxS32 => (of (foldW smaxW ws), 0)
  | .minU32 => (of (foldW uminW ws), 0)
  | .maxU32 => (of (foldW umaxW ws), 0)
  | .and => (of (foldW (· &&& ·) ws), 0)
  | .or => (of (foldW (· ||| ·) ws), 0)
  | .xor => (of (ws.foldl (· ^^^ ·) 0), 0)
  | .addF32 =>
    let (v, f) := nredSum ws
    (of v, f)
  | .minF32 => (of (foldW fminW ws), 0)
  | .maxF32 => (of (foldW fmaxW ws), 0)
  | .arrive => (BitVec.ofNat 64 xs.length, 0)

/-- The identities (R254). -/
def nredIdentity : NredOp → BitVec 64
  | .minS32 => 0x7FFFFFFF
  | .maxS32 => 0x80000000
  | .minU32 | .and => 0xFFFFFFFF
  | .minF32 => 0x7F800000
  | .maxF32 => 0xFF800000
  | _ => 0

/-! ### Issue (R253) -/

def nrId (w : Word) : Nat := bitsOf w 20 4
def nrScope (w : Word) : Nat := bitsOf w 16 3
def nrCount (w : Word) : Nat := bitsOf w 0 16

/-- A control word with a reserved bit set or a scope other than die and pkg. -/
def nredRefused (w : Word) : Bool := bitsOf w 24 8 != 0 || w.getLsbD 19 || (nrScope w != 3 && nrScope w != 4)

def nredStatus (status arrived : Nat) : Word := BitVec.ofNat 32 (arrived * 2 ^ 16 + status)

/-- A contributor's registers in the order of their writing: the result in s(x), for .add.i64 in s(x) and s(x + 1), then the status in s(y). Where y
names a result register the status remains: the spec does not say which does (DESIGN CHOICE, notes/assumptions/83.md). The result carries the mark
of a poisoned contribution (R394). -/
def nredWords (z : NredOp) (x y : Nat) (v : BitVec 64) (psn : Bool) (st : Word) : List (Nat × Word × Bool) :=
  (x, v.setWidth 32, psn) :: (if z = .addI64 then [(x + 1, BitVec.ofNat 32 (v.toNat / 2 ^ 32), psn)] else []) ++ [(y, st, false)]

/-- Scalar registers written one after the other. -/
def Warp.setWords (w : Warp) (rs : List (Nat × Word × Bool)) : Warp := rs.foldl (fun w r => w.setS r.1 r.2.1 r.2.2) w

def Warp.nredResult (w : Warp) (z : NredOp) (x y : Nat) (v : BitVec 64) (psn : Bool) (st : Word) : Warp := w.setWords (nredWords z x y v psn st)

/-- Whether the value that a warp contributes is poisoned (R394); .arrive carries none. -/
def Warp.nredPsn (w : Warp) (z : NredOp) (x : Nat) : Bool := z != .arrive && (w.spsn x || (z == .addI64 && w.spsn (x + 1)))

/-- NRED (R253, R255): a bad control word is REFUSED and COUNT = 0 is EMPTY, both at once in the warp; else the contribution goes
out. A refused one whose SCOPE is neither 3 nor 4 consumes its key at pkg scope: the spec names none (DESIGN CHOICE, notes/assumptions/84.md). -/
def execNred (x y : Fin 64) (op : NredOp) (k c : Fin 16) (tmo : Option Word) (s : State) : Out :=
  issue (.nred x y op k c tmo) s fun t =>
    match t.w.produceWait k with
    | some q => s.waitFor s.cur q
    | none =>
      let ctl := t.w.sreg y
      let val := BitVec.ofNat 64 (if op = .addI64 then t.w.spair x else (t.w.sreg x).toNat)
      let t0 := (tmo.getD 0).toNat
      let kind : OpKind := .nred op x y ctl val (if t0 = 0 then 65536 else t0)
      let (s1, i) := s.issueOp s.cur t.w t.g.core kind (if nrScope ctl = 3 then .die else .pkg) k c []
      let s2 := if nredRefused ctl then (s1.completeOp i).modWarp s.cur fun w => w.setS y (nredStatus 4 0) false
        else if nrCount ctl = 0 then (s1.completeOp i).modWarp s.cur fun w => w.nredResult op x y (nredIdentity op) false (nredStatus 2 0)
        else s1.modOp i fun o => { o with psn := t.w.nredPsn op x }
      s2.modWarp s.cur fun w => w.next (.nred x y op k c tmo)

/-! ### Instances (R255, R329) -/

/-- The value that a contribution carries. -/
def State.nredVal (s : State) (i : Nat) : BitVec 64 :=
  match (s.ops[i]?).map Op.kind with
  | some (.nred _ _ _ _ v _) => v
  | _ => 0

/-- An instance completes: its result, status and number go to every contributor; the flags reach AFLAGS (R254). `aux` of a
contribution holds them until its response arrives; the result of a poisoned contribution is poisoned (R394). -/
def State.nredFinish (s : State) (ii : Nat) (status : Nat) : State :=
  match s.nreds[ii]? with
  | none => s
  | some n =>
    let (v, f) := nredCombine n.z (n.ops.map s.nredVal)
    let st := (nredStatus status n.ops.length).toNat
    let s := { s with nreds := s.nreds.modify ii fun n => { n with isOpen := false } }
    let bad := n.ops.any fun i => ((s.ops[i]?).map Op.psn).getD false
    n.ops.foldl (fun s i => match s.ops[i]? with
      | some o => (s.modOp i fun o => { o with aux := [v.toNat, st], psn := bad }).raiseLater o.warp f
      | none => s) s

/-- The open instance of an identity: the grid, the die for scope 3, the ID. -/
def State.nredOpen (s : State) (grid : Nat) (die : Option Nat) (id : Nat) : Option Nat :=
  s.nreds.findIdx? fun n => n.isOpen && n.grid == grid && n.die == die && n.id == id

/-- Whether a contribution that has been sent is included in an instance. -/
def State.nredIn (s : State) (op : Nat) : Bool := s.nreds.any fun n => n.ops.contains op

/-- A contribution at its unit (R255, R329): it joins the open instance of its identity or opens one; a second one of a warp, and one that finds
the 64 instances of the package's unit busy, waits there. -/
def State.nredEnter (s : State) (op grid : Nat) (die : Option Nat) (o : Op) (z : NredOp) (ctl : Word) (tmo : Nat) : State :=
  match s.nredOpen grid die (nrId ctl) with
  | some ii => match s.nreds[ii]? with
    | none => s
    | some n =>
      if n.ops.any fun i => ((s.ops[i]?).map Op.warp) == some o.warp then s
      else
        let s := { s with nreds := s.nreds.modify ii fun n => { n with ops := n.ops ++ [op] } }
        if n.ops.length + 1 = n.count then s.nredFinish ii 1 else s
  | none =>
    if die.isNone && decide (64 ≤ (s.nreds.filter fun n => n.isOpen && n.die.isNone).length) then s
    else
      let n : NredInst := { grid := grid, die := die, id := nrId ctl, z := z, count := nrCount ctl, ops := [op], startAt := s.now, tmo := tmo }
      let ii := s.nreds.length
      let s := { s with nreds := s.nreds ++ [n] }
      if n.count = 1 then s.nredFinish ii 1 else s

/-- Whether a contribution may be sent: its snapshot has performed at its scope (R151), those of its core without a snapshot go in issue order
(R321), an isolated die reaches no unit outside it (R418), and a link that retrains holds it (R416). -/
def State.nredMaySend (s : State) (op : Nat) (o : Op) (ctl : Word) : Bool :=
  s.snapAt o o.sc && !(o.snap.isEmpty && s.unsentBefore o.core (2 * op + 1)) && 
    !(nrScope ctl = 4 && ((s.die (coreDie o.core)).isolated || s.linkHeld (coreDie o.core) 4))

/-- NRED_CONTRIBUTION (R151, R255, R321, R329): the contribution is sent, and enters an instance or waits at its unit; one that waits there
enters. -/
def execNredContribution (op : Nat) (s : State) : Out :=
  .next (match s.ops[op]? with
    | none => s
    | some o => match o.kind, s.wgs[o.wg]? with
      | .nred z _ _ ctl _ tmo, some g =>
        let die := if nrScope ctl = 3 then some (coreDie o.core) else none
        let sent := fun (s : State) => s.modOp op fun o => { o with status := .started }
        if o.status == .issued then
          if s.nredMaySend op o ctl then (sent s).nredEnter op g.grid die o z ctl tmo else s
        else if o.status == .started && o.aux.isEmpty && !s.nredIn op then s.nredEnter op g.grid die o z ctl tmo
        else s
      | _, _ => s)

/-- NRED_TIMEOUT (R253, R255, R424): tmo units of 16 ns, within 1 %. -/
def execNredTimeout (inst : Nat) (s : State) : Out :=
  .next (match s.nreds[inst]? with
    | some n => if n.isOpen ∧ 99 * 256 * n.tmo ≤ 100 * (s.now - n.startAt) then s.nredFinish inst 3 else s
    | none => s)

/-- Scalar results reach their warp; those of an evicted workgroup are kept for its restore (notes/assumptions/41.md). -/
def State.giveWords (s : State) (wi : Nat) (rs : List (Nat × Word × Bool)) : State :=
  s.modWarp wi fun (w : Warp) =>
    if w.status != .running then w
    else if ((s.wgs[w.wg]?).map Workgroup.status) == some .evicted then { w with owed := w.owed ++ rs } else w.setWords rs

/-- The result of a reduction is back: the registers are written, the NRED leaves its key's set. -/
def State.nredResponse (s : State) (op : Nat) : State :=
  match s.ops[op]? with
  | none => s
  | some o => match o.kind, o.status, o.aux with
    | .nred z x y _ _ _, .started, [v, st] =>
      (s.giveWords o.warp (nredWords z x y (BitVec.ofNat 64 v) o.psn (BitVec.ofNat 32 st))).completeOp op
    | _, _, _ => s

/-- RESPONSE_ARRIVAL (R120, R253, R321). -/
def execResponseArrival (op acc : Nat) (s : State) : Out := .next ((s.memResponse op acc).nredResponse op)

/-! ### TIME (R199) -/

/-- TIME (R199): a request to the Rileveken die; it names no key. -/
def execTime (d : Fin 64) (s : State) : Out :=
  issue (.time d) s fun t =>
    (s.issueOp s.cur t.w t.g.core (.time d) .wg 15 15 []).1.modWarp s.cur fun w => w.next (.time d)

/-- V of R199, not below the die's LASTTIME. -/
def timeValue (t h last : Nat) : Nat := max (t + h) last

/-- Whether a die's TIME requests wait (R418, R423): the centre link retrains; where it has failed, a link of the way through a
neighbouring die does, or there is no such way. -/
def State.timeWaits (s : State) (d : Nat) : Bool := (s.centreWay d).isNone || s.linkHeld d 4

/-- TIME_REPLY (R199, R423): the reply leaves with TIMEBASE and H; it arrives H counts later, so that V lies within 16 counts of TIMEBASE
(`State.elapse` lets no more time pass before it), and is written. While the die's centre link retrains the request waits. -/
def execTimeReply (op : Nat) (s : State) : Out :=
  .next (match s.ops[op]? with
    | none => s
    | some o => match o.kind, o.status, o.aux with
      | .time _, .issued, [] =>
        let d := coreDie o.core
        if s.timeWaits d then s
        else s.modOp op fun o => { o with aux := [s.tb, (s.die d).rt / 2] }
      | .time r, .issued, [t, h] =>
        let d := coreDie o.core
        let v := timeValue t h (s.die d).lastTime
        if s.tb + 16 < v then s
        else
          let s := s.modDie d fun x => { x with lastTime := v }
          (s.modWarp o.warp fun (w : Warp) =>
            if w.status == .running then (w.setS r (BitVec.ofNat 32 v) false).setS (r + 1) (BitVec.ofNat 32 (v / 2 ^ 32)) false else w).completeOp op
      | _, _, _ => s)

end Sys2Proof.Machine
end

