-- ==== Sys2Proof/Machine/Scalar.lean ====
section
/-! DEFINITION. Scalar arithmetic and logic, constants, special registers, mask and format (R181, R182, R185, R189, R190). -/

namespace Sys2Proof.Machine

open Sys2Proof

/-! ### Scalar arithmetic and logic (R181) -/

def shlW (a b : Word) : Word := if b.toNat < 32 then a <<< b.toNat else 0
def shrW (a b : Word) : Word := if b.toNat < 32 then a >>> b.toNat else 0
def sraW (a b : Word) : Word := if b.toNat < 32 then a.sshiftRight b.toNat else if a.msb then BitVec.allOnes 32 else 0
def mulhUW (a b : Word) : Word := BitVec.ofNat 32 (a.toNat * b.toNat / 2 ^ 32)
def mulhSW (a b : Word) : Word := BitVec.ofInt 32 (a.toInt * b.toInt / 2 ^ 32)

/-- The comparisons of SCMP (R181). -/
def sccHolds (c : Scc) (a b : Word) : Bool :=
  match c with
  | .eq => a == b
  | .ne => a != b
  | .ltS => decide (a.toInt < b.toInt)
  | .leS => decide (a.toInt ≤ b.toInt)
  | .gtS => decide (b.toInt < a.toInt)
  | .geS => decide (b.toInt ≤ a.toInt)
  | .ltU => decide (a.toNat < b.toNat)
  | .leU => decide (a.toNat ≤ b.toNat)
  | .gtU => decide (b.toNat < a.toNat)
  | .geU => decide (b.toNat ≤ a.toNat)

def execSmov (d a : Fin 64) (s : State) : Out := scalar1 (.smov d a) d a (fun x => x) s
def execSadd (d a b : Fin 64) (s : State) : Out := scalar2 (.sadd d a b) d a b (fun x y => x + y) s
def execSsub (d a b : Fin 64) (s : State) : Out := scalar2 (.ssub d a b) d a b (fun x y => x - y) s
def execSmul (d a b : Fin 64) (s : State) : Out := scalar2 (.smul d a b) d a b (fun x y => x * y) s
def execSmulhU (d a b : Fin 64) (s : State) : Out := scalar2 (.smulhU d a b) d a b mulhUW s
def execSmulhS (d a b : Fin 64) (s : State) : Out := scalar2 (.smulhS d a b) d a b mulhSW s
def execSdivu (d a b : Fin 64) (s : State) : Out :=
  scalar2 (.sdivu d a b) d a b (fun x y => if y = 0 then BitVec.allOnes 32 else BitVec.ofNat 32 (x.toNat / y.toNat)) s
def execSremu (d a b : Fin 64) (s : State) : Out :=
  scalar2 (.sremu d a b) d a b (fun x y => if y = 0 then x else BitVec.ofNat 32 (x.toNat % y.toNat)) s
def execSand (d a b : Fin 64) (s : State) : Out := scalar2 (.sand d a b) d a b (fun x y => x &&& y) s
def execSor (d a b : Fin 64) (s : State) : Out := scalar2 (.sor d a b) d a b (fun x y => x ||| y) s
def execSxor (d a b : Fin 64) (s : State) : Out := scalar2 (.sxor d a b) d a b (fun x y => x ^^^ y) s
def execSnot (d a : Fin 64) (s : State) : Out := scalar1 (.snot d a) d a (fun x => ~~~x) s
def execSshl (d a b : Fin 64) (s : State) : Out := scalar2 (.sshl d a b) d a b shlW s
def execSshr (d a b : Fin 64) (s : State) : Out := scalar2 (.sshr d a b) d a b shrW s
def execSsra (d a b : Fin 64) (s : State) : Out := scalar2 (.ssra d a b) d a b sraW s
def execSminU (d a b : Fin 64) (s : State) : Out := scalar2 (.sminU d a b) d a b uminW s
def execSminS (d a b : Fin 64) (s : State) : Out := scalar2 (.sminS d a b) d a b sminW s
def execSmaxU (d a b : Fin 64) (s : State) : Out := scalar2 (.smaxU d a b) d a b umaxW s
def execSmaxS (d a b : Fin 64) (s : State) : Out := scalar2 (.smaxS d a b) d a b smaxW s
def execSclz (d a : Fin 64) (s : State) : Out := scalar1 (.sclz d a) d a (fun x => BitVec.ofNat 32 (clz32 x)) s
def execSpopc (d a : Fin 64) (s : State) : Out := scalar1 (.spopc d a) d a (fun x => BitVec.ofNat 32 (popc32 x)) s
def execSsel (d a b : Fin 64) (s : State) : Out :=
  scalarTo (.ssel d a b) d (fun w => if w.sreg d ≠ 0 then w.sreg a else w.sreg b) (fun w => w.spsn a || w.spsn b || w.spsn d) s
def execSlea (d a b : Fin 64) (n : Fin 4) (s : State) : Out :=
  scalar2 (.slea d a b n) d a b (fun x y => x + y <<< n.val) s
def execScmp (cc : Scc) (d a b : Fin 64) (s : State) : Out :=
  scalar2 (.scmp cc d a b) d a b (fun x y => boolWord (sccHolds cc x y)) s

/-! ### Constants (R182) -/

def execSmovi (d : Fin 64) (imm : BitVec 13) (s : State) : Out :=
  scalarTo (.smovi d imm) d (fun _ => imm.signExtend 32) (fun _ => false) s
def execSmoviLiteral (d : Fin 64) (lit : Word) (s : State) : Out :=
  scalarTo (.smoviLiteral d lit) d (fun _ => lit) (fun _ => false) s

/-! ### Special registers (R77 to R79, R185) -/

/-- PART (R75). -/
def Record.part (r : Record) : Word := BitVec.ofNat 32 (r.acc * 2 ^ 16 + r.scr * 2 ^ 8 + r.reg)

/-- PHYSID of core index k (R77). -/
def physId (k : Nat) : Word := BitVec.ofNat 32 (k / 192 + k / 12 % 16 * 2 ^ 4 + k % 12 * 2 ^ 8)

/-- What SRD of a number reads (R77); an unassigned number reads 0 (R78). -/
def State.special (s : State) (c : Ctx) (n : Nat) : Word :=
  let r := c.gr.lrec
  let k := c.g.core
  let d := s.die (coreDie k)
  match n with
  | 0x0000 => BitVec.ofNat 32 (c.w.index r)
  | 0x0001 => BitVec.ofNat 32 r.nwarp
  | 0x0002 => BitVec.ofNat 32 c.g.wg
  | 0x0003 => BitVec.ofNat 32 r.nwg
  | 0x0004 => BitVec.ofNat 32 c.g.cl
  | 0x0005 => BitVec.ofNat 32 r.ncl
  | 0x0006 => BitVec.ofNat 32 c.g.die
  | 0x0007 => BitVec.ofNat 32 r.ndie
  | 0x0008 => BitVec.ofNat 32 r.gridNo
  | 0x0009 => BitVec.ofNat 32 r.ngrid
  | 0x000A => 32
  | 0x0010 => c.w.aflags
  | 0x0011 => BitVec.ofNat 32 c.w.sdepth
  | 0x0012 => BitVec.ofNat 32 c.w.slot
  | 0x0013 => c.w.roleWord
  | 0x0014 => BitVec.ofNat 32 r.privSize
  | 0x0015 => BitVec.ofNat 32 r.spillLines
  | 0x0016 => r.part
  | 0x0018 => BitVec.ofNat 32 (s.core k).clk
  | 0x0019 => c.w.clkLatch
  | 0x0020 => dieOrient (coreDie k)
  | 0x0021 => s.capsPkg
  | 0x0022 => d.capsDie
  | 0x0023 => d.capsCl (coreCl k % 16)
  | 0x0024 => d.sliceLo
  | 0x0025 => d.sliceHi
  | 0x0026 => s.capsLink
  | 0x0028 => physId k
  | 0x0030 => BitVec.ofNat 32 c.gr.asid
  | _ => 0

/-- SRD: the register's value to s(d); SRD of CLKLO latches bits 63:32 (R79). -/
def execSrd (d : Fin 64) (n : BitVec 13) (s : State) : Out :=
  retire (.srd d n) s fun c =>
    let w := c.w.setS d (s.special c n.toNat) false
    if n.toNat = 0x18 then { w with clkLatch := BitVec.ofNat 32 ((s.core c.g.core).clk / 2 ^ 32) } else w

/-- SWR: only AFLAGS is written (R78). -/
def execSwr (a : Fin 64) (n : BitVec 13) (s : State) : Out :=
  retire (.swr a n) s fun c => if n.toNat = 0x10 then { c.w with aflags := swrAflags (c.w.sreg a) } else c.w

/-! ### Mask and format (R189, R190) -/

def execEmrd (d : Fin 64) (s : State) : Out := scalarTo (.emrd d) d (fun w => w.emask) (fun _ => false) s
def execEmwr (a : Fin 64) (s : State) : Out := retire (.emwr a) s fun c => { c.w with emask := c.w.sreg a }
def execSfmt (a : Fin 64) (s : State) : Out := retire (.sfmt a) s fun c => { c.w with fmt := fmtOf (c.w.sreg a) }
def execSfmtLiteral (lit : Word) (s : State) : Out := retire (.sfmtLiteral lit) s fun c => { c.w with fmt := fmtOf lit }
def execSfmtrd (d : Fin 64) (s : State) : Out := scalarTo (.sfmtrd d) d (fun w => w.fmt.setWidth 32) (fun _ => false) s

end Sys2Proof.Machine
end

