-- ==== Sys2Proof/Machine/Trace.lean ====
section
/-! DEFINITION. The instruction trace: TEMIT (R198), the FIFO (R337), packets (R338 to R341), the buffer (R335, R336), the
effects of TRCTL and TRRP writes. -/

namespace Sys2Proof.Machine

open Sys2Proof

/-- Whether a cluster traces an ASID (R335). -/
def State.traces (s : State) (cl asid : Nat) : Bool := (s.reg (trCtl cl)).getLsbD 31 && bitsOf (s.reg (trCtl cl)) 16 13 == asid

/-- TRDROP counts. -/
def State.addDrop (s : State) (cl n : Nat) : State :=
  s.setReg (trDrop cl) (BitVec.ofNat 32 (min (2 ^ 32 - 1) ((s.reg (trDrop cl)).toNat + n)))

/-- WID (R338). -/
def traceWid (core slot : Nat) : Nat := core % 12 * 64 + slot

/-- A TEMIT record enters while fewer than 512 entries are occupied; else it is dropped and counted (R337). -/
def State.enterRecord (s : State) (cl : Nat) (p : Packet) : State :=
  if (s.cluster cl).fifo.length < 512 then s.modCluster cl fun c => { c with fifo := c.fifo ++ [p] }
  else (s.addDrop cl 1).modCluster cl fun c => { c with lossCnt := c.lossCnt + 1 }

/-- TEMIT (R198). -/
def execTemit (a b : Fin 64) (s : State) : Out :=
  issue (.temit a b) s fun c =>
    let cl := coreCl c.g.core
    let p : Packet := .temit (traceWid c.g.core c.w.slot) (BitVec.ofNat 64 ((c.w.sreg a).toNat + 2 ^ 32 * (c.w.sreg b).toNat)) (s.cluster cl).clk
    let s1 := if s.traces cl c.gr.asid then s.enterRecord cl p else s
    s1.modWarp s.cur fun w => w.next (.temit a b)

/-- A WGMAP packet of a workgroup (R338, R341). -/
def State.wgMap (s : State) (wi : Nat) (g : Workgroup) (asid : Nat) : Packet :=
  let slots := (s.warps.filter fun w => w.wg == wi && w.status == .running && w.handler.isNone).map Warp.slot
  .wgmap (traceWid g.core 0) asid g.seq (g.die * 2 ^ 8 + g.cl * 2 ^ 4 + g.wg) slots (s.cluster (coreCl g.core)).clk

/-- A WGMAP or STOP packet enters while an entry of the 576 is free (R337). -/
def State.enterPacket (s : State) (cl : Nat) (p : Packet) : Option State :=
  if (s.cluster cl).fifo.length < 576 then some (s.modCluster cl fun c => { c with fifo := c.fifo ++ [p] }) else none

/-! ### Packets as bytes (R338 to R340) -/

/-- n bytes of a number, least significant first. -/
def leBytes (n v : Nat) : List Byte := (List.range n).map fun i => BitVec.ofNat 8 (v / 256 ^ i)

/-- TYPE, X, WID and body of a packet. -/
def Packet.parts (p : Packet) : Nat × Nat × Nat × List Byte :=
  match p with
  | .temit wid v _ =>
    let n := v.toNat
    if n / 2 ^ 17 = 2 ^ 43 then (2, n / 2 ^ 16 % 2, wid, leBytes 2 n)
    else if n / 2 ^ 48 = 2 ^ 13 then
      let full := n % 2 ^ 32 == 2 ^ 32 - 1
      (3, full.toNat, wid, leBytes 2 (n / 2 ^ 32) ++ if full then [] else leBytes 4 n)
    else (1, 0, wid, leBytes 8 n)
  | .loss n _ => (4, 0, 0, leBytes 4 (min n (2 ^ 32 - 1)))
  | .stop wid cause phase _ => (5, 0, wid, leBytes 4 (phase % 2 ^ 16 * 2 ^ 16 + cause % 2 ^ 8))
  | .wgmap wid asid seq place slots _ =>
    (6, 0, wid, leBytes 2 asid ++ leBytes 4 seq ++ leBytes 2 place ++ leBytes 6 ((slots.map fun n => 2 ^ n).sum))

def Packet.ts : Packet → Nat
  | .temit _ _ t | .wgmap _ _ _ _ _ t | .loss _ t | .stop _ _ _ t => t

/-- DL and the delta's bytes. -/
def deltaBytes (d : Nat) : Nat × List Byte :=
  if d = 0 then (0, []) else if d < 2 ^ 8 then (1, leBytes 1 d) else if d < 2 ^ 16 then (2, leBytes 2 d) else (3, leBytes 4 d)

/-- A packet's bytes after a packet with timestamp `last`. -/
def Packet.bytes (p : Packet) (last : Nat) : List Byte :=
  let (ty, x, wid, body) := p.parts
  let (dl, db) := deltaBytes (p.ts - last)
  leBytes 2 (ty * 2 ^ 13 + dl * 2 ^ 11 + x * 2 ^ 10 + wid) ++ db ++ body

/-- A SYNC packet's bytes. -/
def syncBytes (ts seq phys : Nat) : List Byte := leBytes 2 0 ++ leBytes 8 ts ++ leBytes 4 seq ++ leBytes 2 phys

/-! ### The circular buffers (R336, R345) -/

/-- A circular buffer by its registers: first address, length, write and read offsets. -/
structure CircBuf where
  base : Nat
  size : Nat
  wp : Nat
  rp : Nat
  deriving DecidableEq, Repr

def State.circBuf (s : State) (baseLo baseHi size wp rp : Nat) : CircBuf :=
  { base := bitsOf (s.reg baseHi) 0 20 * 2 ^ 32 + bitsOf (s.reg baseLo) 7 25 * 2 ^ 7
    size := bitsOf (s.reg size) 7 25 * 2 ^ 7, wp := (s.reg wp).toNat, rp := (s.reg rp).toNat }

/-- The free bytes of a buffer; none below 4,096 bytes of length. -/
def CircBuf.room (b : CircBuf) : Nat :=
  if b.size < 4096 then 0 else b.size - (b.wp % b.size + b.size - b.rp % b.size) % b.size

/-- The addresses of the next n bytes. -/
def CircBuf.addrs (b : CircBuf) (n : Nat) : List Nat := (List.range n).map fun i => b.base + (b.wp + i) % b.size

/-- The spans of consecutive addresses that the next bytes take: two where the buffer wraps. -/
def CircBuf.spans (b : CircBuf) (bs : List Byte) : List (Nat × List Byte) :=
  let n := b.size - b.wp % b.size
  [(b.base + b.wp % b.size, bs.take n), (b.base, bs.drop n)].filter fun p => !p.2.isEmpty

/-- The copies of a written span leave the caches (R119). -/
def State.dropSpan (s : State) (asid va n : Nat) : State :=
  (spanPieces va n).foldl (fun s p => match s.place asid p.1 with
    | .here _ a v => s.invalidate a v none
    | _ => s) s

/-- What a write of the device at sys scope comes to: performed, on its way, or failed in another package. -/
inductive DevWrite where
  | done (s : State)
  | wait (s : State)
  | lost (s : State)
  deriving DecidableEq, Repr

/-- Spans that passed their check written at sys scope, the copies of their lines gone: at once here, by requests whose answers are awaited where
another package holds a byte of them (R117, R336). -/
def State.devWrite (s : State) (use : DevUse) (asid : Nat) (spans : List (Nat × List Byte)) : DevWrite :=
  let reqs := spans.map fun p => s.devFind use asid p.1
  if !(reqs.any Option.isSome) && !(spans.any fun p => s.spanAway asid p.1 p.2.length) then
    .done (spans.foldl (fun s p => (s.homeWriteList asid p.1 p.2).dropSpan asid p.1 p.2.length) s)
  else if reqs.all fun r => (r.map DevReq.done).getD false then
    let t := spans.foldl (fun s p => s.devClose use asid p.1) s
    if reqs.any fun r => (r.map DevReq.failed).getD false then .lost t else .done t
  else .wait (spans.foldl (fun s p =>
    if (s.devFind use asid p.1).isSome then s
    else (s.devAsk use asid p.1 p.2.length (some p.2)).dropSpan asid p.1 p.2.length) s)

/-- The first address whose store by a unit on die d would fail its check, with the cause. -/
def State.badStore (s : State) (asid : Nat) (vas : List Nat) (d : Nat := 4) : Option (Nat × Chk) :=
  (vas.map fun a => (a, if 2 ^ 52 ≤ a then Chk.fail 0x10 else s.walkCheck asid a true false d)).find? fun p => match p.2 with
    | .ok _ => false
    | _ => true

/-- A TRACE record (R400): 1 trace buffer, 2 stall-table buffer. -/
def State.logTrace (s : State) (cl asid va cause which : Nat) : State :=
  s.logMem (cl / 16) (recordWords 11 0 asid 0 (BitVec.ofNat 32 (cl / 16 * 2 ^ 20 + cl % 16 * 2 ^ 16)) va (BitVec.ofNat 32 cause) (BitVec.ofNat 32 which))

/-- A FIFO entry has been freed: a waiting loss count enters as a LOSS packet (R337). -/
def Cluster.freed (c : Cluster) : Cluster :=
  if c.lossCnt = 0 then c else { c with fifo := c.fifo ++ [.loss c.lossCnt c.clk], lossCnt := 0 }

/-- A packet cannot be written: a TRACE record, and draining stops (R336). -/
def State.failDrain (s : State) (cl asid va cause : Nat) : State :=
  (s.logTrace cl asid va cause 1).modCluster cl fun c => { c with trFail := true }

/-- TRACE_DRAIN (R336, R340): the oldest packet, with the SYNC it needs, is written when 64 bytes stay free after it; TRWP moves once its bytes have
performed. -/
def execTraceDrain (cluster : Nat) (s : State) : Out :=
  .next (
    let c := s.cluster cluster
    match c.fifo with
    | [] => s
    | p :: rest =>
      if c.trFail then s
      else
        let b := s.circBuf (trBaseLo cluster) (trBaseHi cluster) (trSize cluster) (trWp cluster) (trRp cluster)
        let sync := c.lastTs.isNone || decide (256 ≤ c.sinceSync) || decide (2 ^ 32 ≤ p.ts - c.lastTs.getD 0)
        let bytes := (if sync then syncBytes p.ts c.nPkts (bitsOf (physId (12 * cluster)) 0 8) else []) ++
          p.bytes (if sync then p.ts else c.lastTs.getD 0)
        if b.room < bytes.length + 64 then s
        else
          let vas := b.addrs bytes.length
          match s.badStore c.drainAsid vas (cluster / 16) with
          | some (va, .miss) => s.wantFrame c.drainAsid va
          | some (va, .fail cause) => s.failDrain cluster c.drainAsid va cause
          | _ => match s.devWrite (.trace cluster) c.drainAsid (b.spans bytes) with
          | .wait s => s
          | .lost s => s.failDrain cluster c.drainAsid (vas.headD 0) 0x10
          | .done s =>
            let s := s.setReg (trWp cluster) (BitVec.ofNat 32 ((b.wp + bytes.length) % b.size))
            let upd := fun (c : Cluster) =>
              { c with fifo := rest, nPkts := c.nPkts + 1, sinceSync := if sync then 1 else c.sinceSync + 1, lastTs := some p.ts }
            s.modCluster cluster fun c => (upd c).freed)

/-- Whether a packet is a TEMIT record. -/
def Packet.isRecord : Packet → Bool
  | .temit .. => true
  | _ => false

/-- The WGMAP packets at enable (R335): one for each resident workgroup of the ASID. -/
def State.enterMaps (s : State) (cl asid : Nat) : State :=
  (List.range s.wgs.length).foldl (fun s wi => match s.wgs[wi]? with
    | some g =>
      if coreCl g.core = cl ∧ g.onCore ∧ ((s.grids[g.grid]?).map Grid.asid) = some asid then (s.enterPacket cl (s.wgMap wi g asid)).getD s else s
    | none => s) s

/-- A write of TRCTL (R335, R336). -/
def State.writeTrctl (s : State) (cluster : Nat) (v : Word) : State :=
    let was := (s.reg (trCtl cluster)).getLsbD 31
    let asid := bitsOf v 16 13
    let s1 := s.setReg (trCtl cluster) (v &&& 0x9FFF0000)
    if v.getLsbD 31 && !was then
      let s2 := s1.addDrop cluster ((s1.cluster cluster).fifo.filter Packet.isRecord).length
      let clear := fun (c : Cluster) =>
        { c with fifo := [], lossCnt := 0, nPkts := 0, sinceSync := 0, lastTs := none, drainAsid := asid, trFail := false }
      (s2.modCluster cluster clear).enterMaps cluster asid
    else s1.modCluster cluster fun c => { c with trFail := false, drainAsid := if v.getLsbD 31 then asid else c.drainAsid }

/-- A write of TRRP (R336). -/
def State.writeTrrp (s : State) (cluster : Nat) (v : Word) : State :=
  (s.setReg (trRp cluster) v).modCluster cluster fun c => { c with trFail := false }


end Sys2Proof.Machine
end

