-- ==== Sys2Proof/Machine/Records.lean ====
section
/-! DEFINITION. Launch records (R76, R176 to R179), LAUNCH (R256), the candidates of the distributor (R292 to R296, R303, R391),
host launch queues. -/

namespace Sys2Proof.Machine

open Sys2Proof

/-! ### Reads by units of the package at sys scope -/

/-- What a read of words comes to. -/
inductive SysRead where
  | wait                             -- a frame, a route or the answers of another package are awaited
  | bad                              -- the access check fails, or poison (R391)
  | ok (ws : List Word)
  deriving DecidableEq, Repr

/-- The little-endian words of a list of bytes. -/
def bytesWords : List Byte → List Word
  | a :: b :: c :: d :: bs => BitVec.ofNat 32 (bytesNat [a, b, c, d]) :: bytesWords bs
  | _ => []

/-- n words from an address up, at sys scope, wherever their page's home is (R294, R295). -/
def State.sysRead (s : State) (asid va n : Nat) : SysRead :=
  match s.devRead asid va (4 * n) with
  | .wait | .ask => .wait
  | .fail | .got _ true => .bad
  | .got bs false => .ok (bytesWords bs)

/-- What such a read leaves: its requests, or the page that it wants; once it has been taken, nothing. -/
def State.sysReadOn (s : State) (asid va n : Nat) : State := s.devReadOn asid va (4 * n)

/-! ### Launch records -/

/-- A PC in the two-word form (R178). -/
def pcOf (lo hi : Word) : PC := BitVec.ofNat 52 (lo.toNat + 2 ^ 32 * (hi.toNat % 2 ^ 20))

/-- A launch record from its 84 words (R176 to R178). -/
def Record.ofWords (ws : List Word) : Record :=
  let w := fun n => ws.getD n 0
  let pair := fun n => (w n).toNat + 2 ^ 32 * (w (n + 1)).toNat
  let ndesc := bitsOf (w 0) 12 4
  { version := bitsOf (w 0) 0 8, ndesc := ndesc, gclass := bitsOf (w 0) 10 2, isMatrix := (w 0).getLsbD 9, legal := (w 0).getLsbD 8
    ndie := bitsOf (w 1) 24 3, ncl := bitsOf (w 1) 16 5, nwg := bitsOf (w 1) 8 4, nwarp := bitsOf (w 1) 0 6
    reg := bitsOf (w 2) 0 8, scr := bitsOf (w 2) 8 8, acc := bitsOf (w 2) 16 8, fmt := BitVec.ofNat 16 (w 3).toNat
    privSize := (w 4).toNat, spillLines := bitsOf (w 5) 0 8, privBase := pair 6, argPtr := BitVec.ofNat 52 (pair 8)
    counter := pair 10, start := pair 12, gridNo := (w 14).toNat, ngrid := (w 15).toNat, late := (w 16).toNat
    descs := (List.range (min ndesc 8)).map fun n =>
      let d := w (20 + 4 * n)
      { role := Role.ofCode (bitsOf d 0 2), cls := bitsOf d 24 2, allot := bitsOf d 16 5, count := bitsOf d 4 6
        entry := pcOf (w (21 + 4 * n)) (w (22 + 4 * n)) }
    handlers := (List.range 16).map fun h => pcOf (w (52 + 2 * h)) (w (53 + 2 * h)) }

/-- Fields out of range and reserved bits (R76, R176 to R179). -/
def badRecord (ws : List Word) : Bool :=
  let w := fun n => ws.getD n 0
  let r := Record.ofWords ws
  let out := fun (lo n hi : Nat) => decide (n < lo) || decide (hi < n)
  let mask := fun (n m : Nat) => (w n &&& BitVec.ofNat 32 m) != 0
  mask 0 0xFFFF0000 || mask 1 0xF8E0F0C0 || mask 2 0xFF000000 || mask 3 0xFFFF4000 || mask 5 0xFFFFFF00
    || mask 6 0x7F || mask 7 0xFFF00000 || mask 9 0xFFF00000 || mask 10 7
    || ((List.range 3).any fun i => w (17 + i) != 0)
    || r.version != 1 || out 1 r.ndesc 8 || out 1 r.ndie 4 || out 1 r.ncl 16 || out 1 r.nwg 12 || out 1 r.nwarp 48
    || out 1 r.reg 12 || decide (31 < r.scr) || decide (2 < r.acc) || decide (32 < r.reg + r.scr + r.acc) || (r.acc != 0 && !r.isMatrix)
    || r.privSize % 4 != 0 || out 4 r.privSize 262144 || decide (r.privSize < 4 * r.spillLines) || out 1 r.ngrid 1048576
    || (r.descs.map Desc.count).sum != r.nwarp || decide (64 * r.reg < (r.descs.map fun d => d.count * d.allot).sum)
    || ((List.range 8).any fun n =>
      let b := 20 + 4 * n
      if n < r.ndesc then
        mask b 0xFCE0FC0C || mask (b + 1) 3 || mask (b + 2) 0xFFF00000 || w (b + 3) != 0 || out 1 (bitsOf (w b) 4 6) 48
          || out 1 (bitsOf (w b) 16 5) 16 || pcOf (w (b + 1)) (w (b + 2)) == 0
      else (List.range 4).any fun i => w (b + i) != 0)
    || ((List.range 16).any fun h => mask (52 + 2 * h) 3 || mask (53 + 2 * h) 0xFFF00000)

/-- Whether an empty part could place the grid (R296, R300). -/
def State.idleFits (s : State) (r : Record) : Bool :=
  let cores := fun cl => ((List.range 12).filter fun j => s.corePresent (12 * cl + j)).length
  let dieOk := fun d => decide (r.ncl ≤ ((List.range 16).filter fun c => s.clusterPresent (16 * d + c) && decide (r.nwg ≤ cores (16 * d + c))).length)
    && !(s.die d).isolated
  decide (r.ndie ≤ ((List.range 4).filter dieOk).length)

/-- Whether a die is present: it has a present cluster (R29). -/
def State.diePresent (s : State) (d : Nat) : Bool := decide (d < 4) && (s.die d).clmask != 0 && !(s.die d).isolated

/-- Whether the distributor refuses a record (R296). -/
def State.refusesRecord (s : State) (addr : Nat) (ws : List Word) : Bool :=
  let r := Record.ofWords ws
  badRecord ws || addr % 64 != 0 || decide (((List.range 4).filter s.diePresent).length < r.ndie) || !s.idleFits r

/-! ### LAUNCH (R256) and the pending-launch queue (R303) -/

/-- LAUNCH: it waits while the queue holds four entries, at a blocking point (R55). -/
def execLaunch (x : Fin 64) (sc : Scope) (k c : Fin 16) (s : State) : Out :=
  issue (.launch x sc k c) s fun t =>
    match t.w.produceWait k with
    | some q => s.waitFor s.cur q
    | none =>
      if 4 ≤ t.g.launchQ.length then s.waitFor s.cur .launch
      else
        let addr := t.w.spair x
        let (s1, i) := s.issueOp s.cur t.w t.g.core (.launch addr) sc k c []
        let s2 := s1.modWg t.w.wg fun (g : Workgroup) => { g with launchQ := g.launchQ ++ [{ addr := addr, op := i }] }
        s2.modWarp s.cur fun w => w.next (.launch x sc k c)

/-- The pending-launch entries in a workgroup's image (R80, R303). -/
def State.imageQueue (s : State) (g : Workgroup) : State :=
  match g.saved with
  | none => s
  | some r =>
    let k := physKey r.die r.base
    let m := Memory.setN s.mem (k + 0x0C) 4 g.launchQ.length
    { s with mem := (List.range 4).foldl (fun m i => Memory.setN m (k + 0x1C0 + 8 * i) 8 ((g.launchQ[i]?.map LaunchEntry.addr).getD 0)) m }

/-- Whether the oldest entry may go (R151, R321): its LAUNCH's snapshot has performed at its scope; without a snapshot it goes in its core's issue
order. An isolated die reaches no buffer (R418), a link that retrains holds it (R416). An entry that only an image holds awaits nothing. -/
def State.entryMaySend (s : State) (g : Workgroup) (op : Nat) : Bool :=
  !(s.die (coreDie g.core)).isolated && !s.linkHeld (coreDie g.core) 4 && (match s.ops[op]? with
    | some o => s.snapAt o o.sc && !(o.snap.isEmpty && s.unsentBefore o.core (2 * op + 1))
    | none => true)

/-- LAUNCH_ENTRY_SEND (R151, R303, R321): the oldest entry goes to the distributor's buffer of 64; an evicted workgroup's from its image. -/
def execLaunchEntrySend (wg : Nat) (s : State) : Out :=
  .next (match s.wgs[wg]? with
    | none => s
    | some g => match g.launchQ, s.grids[g.grid]? with
      | e :: rest, some gr =>
        if g.status = .terminated ∨ 64 ≤ s.devBuf ∨ !s.entryMaySend g e.op then s
        else
          let c : Candidate := { src := .device e.op wg, addr := e.addr, asid := gr.asid, arrival := s.now }
          let s := { s with cands := s.cands ++ [c], devBuf := s.devBuf + 1 }
          let s := (s.modWg wg fun (g : Workgroup) => { g with launchQ := rest }).modOp e.op fun o => { o with status := .started }
          if g.status = .evicted then s.imageQueue { g with launchQ := rest } else s
      | _, _ => s)

/-! ### Host launch queues (R293, R294) -/

def lqSize (ctl : Word) : Nat := 2 ^ bitsOf ctl 0 4
def lqHead (w : Word) : Nat := bitsOf w 16 12
def lqTailOf (w : Word) : Nat := bitsOf w 0 12

/-- LOG2N as it reads and acts (R293). -/
def fixLog2n (v : Word) : Word := if bitsOf v 0 4 = 0 ∨ 12 < bitsOf v 0 4 then setBits v 0 4 1 else v

def Candidate.ofQueue (c : Candidate) (q : Nat) : Bool := c.src == .host q

/-- A write of LQCTL (R293, R294). -/
def State.writeLqctl (s : State) (q : Nat) (v : Word) : State :=
  let old := s.reg (lqCtl q)
  let unread := fun (c : Candidate) => if c.ofQueue q then { c with lrec := none, waiting := false } else c
  if old.getLsbD 31 then
    if v.getLsbD 31 then s else { s.setReg (lqCtl q) (setBits old 31 1 0) with cands := s.cands.map unread }
  else
    let new := fixLog2n (v &&& 0x9FFF000F)
    let s := s.setReg (lqCtl q) new
    if bitsOf new 0 4 = bitsOf old 0 4 then s
    else { s.setReg (lqTail q) 0 with cands := s.cands.filter fun c => !c.ofQueue q }

/-- A write of LQBASELO or LQBASEHI: ignored while EN = 1. -/
def State.writeLqbase (s : State) (q ma : Nat) (v : Word) : State := if (s.reg (lqCtl q)).getLsbD 31 then s else s.setReg ma v

/-- A write of LQTAIL, the doorbell (R294, R295): the entries newly covered arrive now. -/
def State.writeLqtail (s : State) (q : Nat) (v : Word) : State :=
  let ctl := s.reg (lqCtl q)
  let n := lqSize ctl
  let head := lqHead (s.reg (lqTail q))
  let tail := bitsOf v 0 12 % n
  let count := (tail + n - head) % n
  let mine := s.cands.filter fun c => c.ofQueue q
  let others := s.cands.filter fun c => !c.ofQueue q
  let new : Candidate := { src := .host q, addr := 0, asid := 0, arrival := s.now }
  { s.setReg (lqTail q) (BitVec.ofNat 32 (head * 2 ^ 16 + tail)) with
    cands := others ++ mine.take count ++ List.replicate (count - mine.length) new }

/-! ### Candidates (R295, R296, R391) -/

/-- Whether two candidates stand at one source: a host queue, or the pending-launch queue of a workgroup. -/
def sameQueue (a b : Candidate) : Bool :=
  match a.src, b.src with
  | .host p, .host q => p == q
  | .device _ g, .device _ h => g == h
  | _, _ => false

/-- Whether candidate i is its source's: the oldest, of a queue that is enabled. -/
def State.isCandidate (s : State) (i : Nat) (c : Candidate) : Bool :=
  !((s.cands.take i).any (sameQueue c)) && (match c.src with
    | .host q => (s.reg (lqCtl q)).getLsbD 31
    | .device _ _ => true)

/-- A candidate is taken: HEAD advances, or the buffer entry frees. -/
def State.take (s : State) (i : Nat) : State :=
  match s.cands[i]? with
  | none => s
  | some c =>
    let s := { s with cands := s.cands.eraseIdx i }
    match c.src with
    | .host q =>
      let t := s.reg (lqTail q)
      s.setReg (lqTail q) (setBits t 16 12 ((lqHead t + 1) % lqSize (s.reg (lqCtl q))))
    | .device _ _ => { s with devBuf := s.devBuf - 1 }

/-- The LAUNCH of a device entry leaves its key's set. -/
def State.leaveSource (s : State) (src : Source) : State :=
  match src with
  | .device op _ => s.completeOp op
  | .host _ => s

/-- A LAUNCH record (R386, R391). -/
def State.logLaunch (s : State) (cause asid addr : Nat) : State :=
  s.logErr (recordWords 7 cause asid 0 0 0 (BitVec.ofNat 32 addr) (BitVec.ofNat 32 (addr / 2 ^ 32 % 2 ^ 20)))

/-- A grid's entry before placement. -/
def newGrid (r : Record) (asid addr : Nat) (src : Source) (st : GridStatus) : Grid :=
  { lrec := r, asid := asid, addr := addr, src := src, status := st, pools := List.replicate 16 {} }

/-- LAUNCH_RECORD_READ (R295, R296, R391): candidate number `src` is read; unreadable, it is taken with a LAUNCH record; refused, it
is taken and its counter is to be signalled. -/
def execLaunchRecordRead (src : Nat) (s : State) : Out :=
  .next (match s.cands[src]? with
    | none => s
    | some c =>
      if c.lrec.isSome || !s.isCandidate src c then s
      else
        let asid := match c.src with
          | .host q => bitsOf (s.reg (lqCtl q)) 16 13
          | .device _ _ => c.asid
        let base := bitsOf (s.reg (lqBaseHi (match c.src with | .host q => q | .device _ _ => 0))) 0 20 * 2 ^ 32
        let at_ := match c.src with
          | .host q => base + bitsOf (s.reg (lqBaseLo q)) 3 29 * 8 + 8 * lqHead (s.reg (lqTail q))
          | .device _ _ => 0
        let entry := match c.src with
          | .host _ => s.sysRead asid at_ 2
          | .device _ _ => .ok [BitVec.ofNat 32 c.addr, BitVec.ofNat 32 (c.addr / 2 ^ 32)]
        let done := fun (s : State) => match c.src with
          | .host _ => s.sysReadOn asid at_ 2
          | .device _ _ => s
        match entry with
        | .wait => s.sysReadOn asid at_ 2
        | .bad => (((done s).take src).logLaunch 1 asid 0).leaveSource c.src
        | .ok ws =>
          let addr := (ws.getD 0 0).toNat + 2 ^ 32 * (ws.getD 1 0).toNat
          let t := s.sysReadOn asid addr 84
          match s.sysRead asid addr 84 with
          | .wait => t
          | .bad => (((done t).take src).logLaunch 1 asid addr).leaveSource c.src
          | .ok ws =>
            if s.refusesRecord addr ws then
              let s1 := ((done t).take src).leaveSource c.src
              { s1 with grids := s1.grids ++ [newGrid (Record.ofWords ws) asid addr c.src .refused] }
            else
              let read := fun (c : Candidate) => { c with addr := addr, asid := asid, lrec := some (Record.ofWords ws) }
              { done t with cands := s.cands.modify src read })

end Sys2Proof.Machine
end

