-- ==== Sys2Proof/Machine/Distributor.lean ====
section
/-! DEFINITION. The distributor: placement (R300, R301), the decision (R295), holds and release (R298, R299, R304, R425), victims
(R302), completion (R155, R297, R391). -/

namespace Sys2Proof.Machine

open Sys2Proof

/-! ### What a core can take (R300) -/

/-- Whether a workgroup has engine commands that have not completed (R382). -/
def State.cmdsLive (s : State) (wi : Nat) : Bool :=
  s.ops.any fun o => o.wg == wi && o.status.live && (match o.kind with
    | .cmd _ => true
    | _ => false)

/-- The workgroups that hold local store of a core: those on it, and ended ones whose engine commands still run (R382); `skip`
counts as free. -/
def State.holders (s : State) (k : Nat) (skip : Nat → Bool) : List (Nat × Workgroup × Record) :=
  (List.range s.wgs.length).filterMap fun wi => match s.wgs[wi]? with
    | some g =>
      if g.core = k ∧ !skip wi ∧ (g.onCore ∨ (g.hasEnded ∧ s.cmdsLive wi)) then ((s.grids[g.grid]?).map fun gr => (wi, g, gr.lrec)) else none
    | none => none

/-- The occupied warp slots of a core. -/
def State.usedSlots (s : State) (k : Nat) (skip : Nat → Bool) : Nat :=
  (s.warps.filter fun w => w.status == .running && !skip w.wg && (match s.wgs[w.wg]? with
    | some g => g.core == k && g.onCore
    | none => false)).length

/-- Whether core k can take a workgroup of a grid (R300). -/
def State.canTake (s : State) (r : Record) (skip : Nat → Bool) (k : Nat) : Bool :=
  let hs := s.holders k skip
  s.corePresent k && s.diePresent (coreDie k) && decide ((hs.filter fun h => h.2.1.onCore).length ≤ 3)
    && decide (r.nwarp + s.usedSlots k skip ≤ 48)
    && decide ((hs.map fun h => h.2.2.reg + h.2.2.scr + h.2.2.acc).sum + r.reg + r.scr + r.acc ≤ 32)
    && !(r.isMatrix && hs.any fun h => h.2.2.isMatrix)

/-! ### The choice (R301) -/

/-- A list sorted by a key, stably. -/
def insertBy (key : Nat → Nat) (x : Nat) : List Nat → List Nat
  | [] => [x]
  | y :: ys => if key x < key y then x :: y :: ys else y :: insertBy key x ys

def sortBy (key : Nat → Nat) (xs : List Nat) : List Nat := xs.foldl (fun ys x => insertBy key x ys) []

/-- The cores of a cluster that can take a workgroup. -/
def State.takers (s : State) (r : Record) (skip : Nat → Bool) (cl : Nat) : List Nat :=
  (List.range 12).filterMap fun j => if s.canTake r skip (12 * cl + j) then some (12 * cl + j) else none

/-- The qualifying clusters of a die, with their cores. -/
def State.fitClusters (s : State) (r : Record) (skip : Nat → Bool) (d : Nat) : List (Nat × List Nat) :=
  ((List.range 16).map fun c => (16 * d + c, s.takers r skip (16 * d + c))).filter fun p => decide (r.nwg ≤ p.2.length)

/-- The dies, clusters and cores chosen for a grid: (%die, %cl, %wg, core). -/
def State.plan (s : State) (r : Record) (skip : Nat → Bool) : Option (List (Nat × Nat × Nat × Nat)) :=
  let fits := (List.range 4).map fun d => s.fitClusters r skip d
  let ok := (List.range 4).filter fun d => decide (r.ncl ≤ (fits.getD d []).length)
  if ok.length < r.ndie then none
  else
    let rank := fun d => 1000 - ((fits.getD d []).map fun p => p.2.length).sum
    let dies := sortBy id ((sortBy rank ok).take r.ndie)
    some (dies.zipIdx.flatMap fun (d, di) =>
      let cls := fits.getD d []
      let cores := fun cl => ((cls.find? fun p => p.1 == cl).map Prod.snd).getD []
      let chosen := sortBy id ((sortBy (fun cl => 12 - (cores cl).length) (cls.map Prod.fst)).take r.ncl)
      chosen.zipIdx.flatMap fun (cl, ci) =>
        (sortBy id ((sortBy (fun k => s.usedSlots k skip) (cores cl)).take r.nwg)).zipIdx.map fun (k, wi) => (di, ci, wi, k))

/-! ### Placement -/

/-- The descriptor of each %warp (R49). -/
def Record.warpDescs (r : Record) : List (Nat × Desc) :=
  r.descs.zipIdx.flatMap fun p => List.replicate p.1.count (p.2, p.1)

/-- A workgroup placed on a core, with its warps (R39, R49, R61, R70). -/
def State.placeWg (s : State) (gi : Nat) (r : Record) (di ci wi k : Nat) : State :=
  let n := s.wgs.length
  let g : Workgroup := { grid := gi, seq := s.seqNo + 1, die := di, cl := ci, wg := wi, core := k
                         tiles := List.replicate 16 {}, bslots := List.replicate 64 {}, bars := List.replicate 16 {}, rings := List.replicate 8 {} }
  let slots := s.freeSlots k
  let ws := (r.warpDescs.zipIdx).map fun p =>
    Warp.fresh n p.2 (slots.getD p.2 0) p.1.2.role p.1.2.cls p.1.1 p.1.2.allot p.1.2.entry r.fmt r.argPtr
  { s with wgs := s.wgs ++ [g], warps := s.warps ++ ws, seqNo := s.seqNo + 1 }

/-- A grid placed (R37, R301), none when it does not fit. -/
def State.placeGrid (s : State) (gi : Nat) (r : Record) : Option State :=
  (s.plan r fun _ => false).map fun p =>
    (p.foldl (fun s q => s.placeWg gi r q.1 q.2.1 q.2.2.1 q.2.2.2) s).modGrid gi fun g => { g with status := .placed }

/-! ### Waiting candidates and victims (R302) -/

/-- Whether a candidate or held grid of class c or above waits for room, other than the ones named. -/
def State.waitsAbove (s : State) (c : Nat) (notCand notGrid : Option Nat) : Bool :=
  ((List.range s.cands.length).any fun i => some i != notCand && (match s.cands[i]? with
    | some x => x.waiting && (match x.lrec with
      | some r => decide (c ≤ r.gclass)
      | none => false)
    | none => false))
  || ((List.range s.grids.length).any fun i => some i != notGrid && (match s.grids[i]? with
    | some g => g.status == .waiting && decide (c ≤ g.lrec.gclass)
    | none => false))

/-- Whether a grid has been started and a workgroup of it runs on a core. -/
def State.victimGrid (s : State) (c gi : Nat) : Bool :=
  match s.grids[gi]? with
  | some g => g.status == .released && decide (g.lrec.gclass < c) && (s.wgs.any fun w => w.grid == gi && w.status == .running)
  | none => false

/-- Whether a workgroup of a started grid of class below c is under a pre-emption request. -/
def State.preempting (s : State) (c wi : Nat) : Bool := match s.wgs[wi]? with
  | some g => g.preempt && g.status == .running && (match s.grids[g.grid]? with
    | some gr => gr.status == .released && decide (gr.lrec.gclass < c)
    | none => false)
  | none => false

/-- The workgroups of some grids, with those of class below c already requested. -/
def State.ofGrids (s : State) (c : Nat) (gs : List Nat) (wi : Nat) : Bool :=
  s.preempting c wi || (match s.wgs[wi]? with
    | some g => g.status == .running && gs.contains g.grid
    | none => false)

/-- A pre-emption request for the workgroups of a grid. -/
def State.preemptGrid (s : State) (gi : Nat) : State :=
  { s with wgs := s.wgs.map fun g => if g.grid == gi && g.status == .running then { g with preempt := true } else g }

/-- The victims of a placement, whole grids, until the candidate would fit. -/
def State.chooseVictims (s : State) (r : Record) : List Nat → List Nat → List Nat
  | _, [] => []
  | got, v :: vs => if (s.plan r (s.ofGrids r.gclass (v :: got))).isSome then [v] else v :: s.chooseVictims r (v :: got) vs

/-- PREEMPT_REQUEST (R302). -/
def State.requestRoom (s : State) (r : Record) : State :=
  let all := (List.range s.grids.length).filter (s.victimGrid r.gclass)
  if (s.plan r (s.ofGrids r.gclass [])).isSome ∨ (s.plan r (s.ofGrids r.gclass all)).isNone then s
  else
    let startOf := fun gi => ((s.grids[gi]?).map Grid.startSeq).getD 0
    let classOf := fun gi => ((s.grids[gi]?).map fun g => g.lrec.gclass).getD 0
    let order := sortBy (fun gi => classOf gi * (s.starts + 1) + (s.starts - startOf gi)) all
    (s.chooseVictims r [] order).foldl State.preemptGrid s

/-! ### Restores that go first (R307, R308) -/

/-- Whether a KWAIT's saved snapshot has performed. -/
def State.wakeKey (s : State) (d : Nat) (w : Warp) : Bool :=
  match w.wait with
  | .kwait k sc _ => (w.keySet k).all fun m => s.memberAt d m sc
  | _ => false

/-- Whether a saved warp's wake condition holds, read from the image (R307). -/
def State.wakes (s : State) (g : Workgroup) (r : SaveRange) (off : Nat) (w : Warp) : Bool :=
  let rd := fun o => Memory.word s.mem (physKey r.die (r.base + o))
  let wake := rd (off + 8)
  let arg := bitsOf wake 4 4
  match bitsOf wake 0 4 with
  | 1 => (rd (0x40 + 16 * arg)).getLsbD 16 == wake.getLsbD 8
  | 2 => bitsOf (rd (0x140 + 16 * (arg % 8) + 4)) 4 7 != 0
  | 3 => s.wakeKey (coreDie g.core) w
  | 4 => decide (bitsOf (rd 0x0C) 0 32 < 4)
  | _ => false

/-- Bytes of a warp record (R82). -/
def warpRecord (w : Warp) : Nat := 0x820 + if w.status == .running then 1024 * w.allot else 0

/-- The ordinary warps of a workgroup with their indices, by ascending %warp. -/
def State.ordinary (s : State) (wi : Nat) : List (Nat × Warp) :=
  (List.range s.warps.length).filterMap fun i => match s.warps[i]? with
    | some w => if w.wg = wi ∧ w.handler.isNone then some (i, w) else none
    | none => none

/-- The offset of the first warp record in an image (R80). -/
def Workgroup.warpBase (g : Workgroup) (r : Record) : Nat :=
  0x200 + r.scr * 65536 + (g.tiles.filter Tile.occ).length * r.acc * 4096 + (g.bslots.filter BSlot.occ).length * 4096
    + (g.rings.map fun x => if x.n = 0 then 0 else 16 + 16 * x.n).sum

/-- The warps of a workgroup with the offsets of their records. -/
def State.recordOffsets (s : State) (wi : Nat) (g : Workgroup) (r : Record) : List (Nat × Nat × Warp) :=
  ((s.ordinary wi).foldl (fun (p : Nat × List (Nat × Nat × Warp)) x => (p.1 + warpRecord x.2, p.2 ++ [(p.1, x.1, x.2)]))
    (g.warpBase r, [])).2

/-- Whether an evicted workgroup is eligible for restore (R305, R307). -/
def State.eligible (s : State) (wi : Nat) : Bool :=
  match s.wgs[wi]? with
  | none => false
  | some g => match g.saved, s.grids[g.grid]? with
    | some r, some gr =>
      g.status == .evicted && !g.byCmd &&
        ((s.msgs.any fun m => m.stage == .buffered && m.tgtWg == some wi) ||
          (s.recordOffsets wi g gr.lrec).any fun p => s.wakes g r p.1 p.2.2)
    | _, _ => false

/-- The core that a restore takes (R308): one that holds no other workgroup of its grid (R36). -/
def State.restoreCore (s : State) (wi : Nat) : Option Nat :=
  match s.wgs[wi]? with
  | none => none
  | some g => match s.grids[g.grid]? with
    | none => none
    | some gr =>
      let free := fun (k : Nat) => !(s.wgs.any fun h => h.grid == g.grid && h.onCore && h.core == k)
      (sortBy (fun k => s.usedSlots k fun _ => false) ((s.takers gr.lrec (fun _ => false) (coreCl g.core)).filter free)).head?

/-- Whether a workgroup can be restored now: eligible, a core free, no waiting candidate of its class or above (R302). -/
def State.restorable (s : State) (wi : Nat) : Bool :=
  s.eligible wi && (s.restoreCore wi).isSome && (match (s.wgs[wi]?).bind fun g => s.grids[g.grid]? with
    | some gr => !s.waitsAbove gr.lrec.gclass none none
    | none => false)

/-- Whether a restore of class c or above goes before a placement of class c (R308). -/
def State.restoreFirst (s : State) (c : Nat) : Bool :=
  (List.range s.wgs.length).any fun wi => s.restorable wi && (match (s.wgs[wi]?).bind fun g => s.grids[g.grid]? with
    | some gr => decide (c ≤ gr.lrec.gclass)
    | none => false)

/-! ### The decision (R295, R298) -/

/-- Hold-table entries in use (R298). -/
def State.holdsUsed (s : State) : Nat :=
  (s.grids.filter fun g => g.lrec.start != 0 && (g.status == .held || g.status == .waiting || g.status == .placed)).length

/-- The candidates that have been read, in the order of R295; device entries of one arrival time in the order in which they came to the buffer, a
point the spec leaves open (DESIGN CHOICE, notes/assumptions/86.md). -/
def State.ranked (s : State) : List (Nat × Candidate × Record) :=
  let cs := (List.range s.cands.length).filterMap fun i => match s.cands[i]? with
    | some c => match c.lrec with
      | some r => if s.isCandidate i c then some (i, c, r) else none
      | none => none
    | none => none
  let before := fun (a b : Nat × Candidate × Record) =>
    let qa := match a.2.1.src with
      | .host q => q
      | .device _ _ => 64
    let qb := match b.2.1.src with
      | .host q => q
      | .device _ _ => 64
    if a.2.2.gclass != b.2.2.gclass then decide (b.2.2.gclass < a.2.2.gclass)
    else if a.2.1.arrival != b.2.1.arrival then decide (a.2.1.arrival < b.2.1.arrival)
    else if qa != qb then decide (qa < qb) else decide (a.1 < b.1)
  cs.foldl (fun out x =>
    let (pre, post) := out.span fun y => before y x
    pre ++ x :: post) []

/-- One candidate is tried: `true` ends the decision. -/
def State.tryCandidate (s : State) (i : Nat) (c : Candidate) (r : Record) : State × Bool :=
  if r.start ≠ 0 then
    if 16 ≤ s.holdsUsed then (s, false)
    else
      let s := s.take i
      ({ s with grids := s.grids ++ [newGrid r c.asid c.addr c.src .held] }, true)
  else if s.waitsAbove r.gclass (some i) none || s.restoreFirst r.gclass then (s, false)
  else
    let gi := s.grids.length
    match ({ s with grids := s.grids ++ [newGrid r c.asid c.addr c.src .placed] }).placeGrid gi r with
    | some s1 => (s1.take i, true)
    | none =>
      let wait := fun (c : Candidate) => { c with waiting := true }
      (({ s with cands := s.cands.modify i wait }).requestRoom r, false)

/-- DISTRIBUTOR_DECISION (R295): the best candidate that can be handed on goes to placement or to the hold table. -/
def execDistributorDecision (s : State) : Out :=
  .next (s.ranked.foldl (fun (p : State × Bool) x => if p.2 then p else p.1.tryCandidate x.1 x.2.1 x.2.2) (s, false)).1

/-- HOLD_PLACEMENT (R298, R302): a held record goes to placement from START − PLACELEAD. -/
def execHoldPlacement (grid : Nat) (s : State) : Out :=
  .next (match s.grids[grid]? with
    | none => s
    | some g =>
      if (g.status ≠ .held ∧ g.status ≠ .waiting) ∨ s.tb + (s.reg 0x0060).toNat < g.lrec.start then s
      else if s.waitsAbove g.lrec.gclass none (some grid) || s.restoreFirst g.lrec.gclass then s
      else match s.placeGrid grid g.lrec with
        | some s1 => s1
        | none => (s.modGrid grid fun g => { g with status := .waiting }).requestRoom g.lrec)

/-! ### Release (R299, R304) -/

/-- The scope of the LAUNCH that a grid came from. -/
def State.launchScope (s : State) (src : Source) : Option Scope :=
  match src with
  | .device op _ => (s.ops[op]?).map Op.sc
  | .host _ => none

/-- GRID_RELEASE (R151, R299, R304, R425): the workgroups start; a late release is remembered. -/
def execGridRelease (grid : Nat) (s : State) : Out :=
  .next (match s.grids[grid]? with
    | none => s
    | some g =>
      if g.status ≠ .placed ∨ s.tb < g.lrec.start then s
      else
        let lateness := s.tb - g.lrec.start
        let late := if g.lrec.start ≠ 0 ∧ g.lrec.late < lateness then some lateness else none
        let s := match s.launchScope g.src with
          | some sc => s.wgs.foldl (fun (s : State) (w : Workgroup) => if w.grid == grid then s.consumed w.core sc [] else s) s
          | none => s
        let start := fun (w : Workgroup) => if w.grid == grid && w.status == .placed then { w with status := .running } else w
        let s := { s with wgs := s.wgs.map start, starts := s.starts + 1 }
        s.modGrid grid fun g => { g with status := .released, lateBy := late, startSeq := s.starts })

/-! ### Completion (R155, R297, R391) -/

/-- LATEB's bit of a lateness in counts of 1/16 ns: 16,000 counts are 1 µs (R297). -/
def latebBit (l : Nat) : Nat := if l < 16000 then 16 else 16 + min 15 (Nat.log2 (l / 16000))

/-- Word 1's flags of a grid. -/
def Grid.flags (g : Grid) : Word :=
  BitVec.ofNat 32 ((g.status == .refused).toNat + 4 * g.error.toNat + (match g.lateBy with
    | some l => 2 + 2 ^ latebBit l
    | none => 0))

/-- Whether an operation of a grid may still write global memory, or is an AMSEND not yet delivered (R155). -/
def State.opPending (s : State) (i : Nat) (o : Op) : Bool :=
  match o.kind with
  | .mem .load _ _ _ _ => false
  | .mem .. => s.opLevel i != 5
  | .cmd _ => o.status.live
  | .amsend .. => o.status != .complete
  | _ => false

/-- Whether every warp of a grid has ended and its writes and messages are done. -/
def State.gridQuiet (s : State) (gi : Nat) : Bool :=
  s.wgs.all (fun g => g.grid != gi || g.hasEnded) &&
    (List.range s.ops.length).all fun i => match s.ops[i]? with
      | some o => ((s.wgs[o.wg]?).map Workgroup.grid) != some gi || !s.opPending i o
      | none => true

/-- A RED of the device on a word of a counter (R297): at home, the copies gone; on another package's page a request whose answer is awaited. -/
def State.counterStep (s : State) (gi asid va : Nat) (op : AtomOp) (x : Word) : DevWrite :=
  match s.devFind (.signal gi) asid va with
  | some r => if !r.done then .wait s else if r.failed then .lost (s.devClose (.signal gi) asid va) else .done (s.devClose (.signal gi) asid va)
  | none => match s.place asid va with
    | .foreign chip a v => match s.route chip with
      | .group g =>
        let req : DevReq := { use := .signal gi, addr := va, write := true, asid := asid, pieces := [{ chip := chip, size := 4, sent := s.now }] }
        let t := s.send g chip (.atom (accTag (hostOp + s.devReqs.length) 0) a v op [x])
        .wait { t with devReqs := t.devReqs ++ [req] }
      | .waits _ => .wait s
      | _ => .lost s
    | .here k a v =>
      let s := s.invalidate a v none
      .done (if Marks.read s.memPsn k 4 ≠ 0 then s else s.writeAt k a v 4 15 (aopStep op (Memory.word s.mem k) x).toNat 0)
    | .alloc _ _ => .wait (s.wantFrame asid va)
    | .absent => .wait s
    | .unmapped => .lost s

/-- A step that does nothing at its home any more has performed, with a LATE record (R402, R421). -/
def State.lateStep (s : State) (asid va : Nat) : State := s.logMem (homeDie va) (recordWords 4 0 asid 0 0 va 0x10 3)

/-- GRID_COMPLETION_SIGNAL (R155, R297, R391): the two steps of the signal, the second once the first has performed; a counter that cannot be
written gives a LAUNCH record, and so does one of a refused record that is not a multiple of 8, of which the spec says nothing
(DESIGN CHOICE, notes/assumptions/87.md). -/
def execGridCompletionSignal (grid : Nat) (s : State) : Out :=
  .next (match s.grids[grid]? with
    | none => s
    | some g =>
      if !((g.status == .released && s.gridQuiet grid) || g.status == .refused) then s
      else
        let c := g.lrec.counter
        let finish := fun (s : State) => (s.modGrid grid fun g => { g with status := .signalled }).leaveSource g.src
        let flag := fun (s : State) => s.modGrid grid fun g => { g with flagged := true }
        if g.flagged then match s.counterStep grid g.asid c .add 1 with
          | .wait t => t
          | .done t => finish t
          | .lost t => finish (t.lateStep g.asid c)
        else if c % 8 ≠ 0 ∨ 2 ^ 52 ≤ c then finish (s.logLaunch 2 g.asid g.addr)
        else match s.walkCheck g.asid c true true with
          | .miss => s.wantFrame g.asid c
          | .fail _ => finish (s.logLaunch 2 g.asid g.addr)
          | .ok _ => match s.counterStep grid g.asid (c + 4) .or g.flags with
            | .wait t => t
            | .done t => flag t
            | .lost t => flag (t.lateStep g.asid (c + 4)))

end Sys2Proof.Machine
end

