-- ==== Sys2Proof/Machine/Evict.lean ====
section
/-! DEFINITION. Eviction and restore (R55 to R58, R305 to R308), the context image (R80 to R84) and its checks (R390), termination
(R382). -/

namespace Sys2Proof.Machine

open Sys2Proof

/-! ### The image (R80 to R83) -/

/-- A word of an image: its offset, its value, its poison mark. -/
abbrev ImgWord := Nat × Word × Bool

def img (off : Nat) (v : Word) : ImgWord := (off, v, false)

/-- WAKE of a warp at its blocking instruction (R83). -/
def Warp.wake (w : Warp) : Word :=
  if w.status ≠ .running then 0xF
  else match w.wait with
    | .bwait b par => BitVec.ofNat 32 (par.toNat * 2 ^ 8 + b * 2 ^ 4 + 1)
    | .ringAcq r true => BitVec.ofNat 32 (r * 2 ^ 4 + 2)
    | .kwait k _ _ => BitVec.ofNat 32 (k * 2 ^ 4 + 3)
    | .launch => 4
    | _ => 0

/-- The numbers of the things that are true, as a mask. -/
def maskOf (bs : List Bool) : Nat := bs.foldr (fun b n => b.toNat + 2 * n) 0

/-- Word 1 of a ring record (R74). -/
def Ring.counters (r : Ring) : Word :=
  BitVec.ofNat 32 (r.cph.toNat * 2 ^ 31 + r.pph.toNat * 2 ^ 30 + r.cidx * 2 ^ 24 + r.pidx * 2 ^ 18 + r.free * 2 ^ 11 + r.filled * 2 ^ 4)

/-- The ring record (R74). -/
def Ring.record (r : Ring) : List Word :=
  if r.n = 0 then [0, 0, 0, 0]
  else [BitVec.ofNat 32 ((r.n - 1) * 2 ^ 26 + r.base), r.counters, BitVec.ofNat 32 r.slotb, r.word3]

/-- The words of a slot record (R81) but for its references. -/
def RingSlot.marks (x : RingSlot) : Word := BitVec.ofNat 32 (maskOf [x.pacq, x.pcom, x.cacq, x.crel])

/-- The OPAQ reference written at an offset of the image that save number `n` makes. -/
def opaqAt (n off : Nat) : Word := Config.opaq (n * 2 ^ 24 + off)

/-- The ring-slot state of a ring at an offset (R81); a reference is 0 until a set has been recorded since RINIT. -/
def Ring.slotWords (r : Ring) (n off : Nat) : List ImgWord :=
  img off (BitVec.ofNat 32 (r.ocons * 2 ^ 8 + r.oprod)) ::
    r.slots.zipIdx.flatMap fun p =>
      let o := off + 16 + 16 * p.2
      [img o p.1.marks, img (o + 4) (if p.1.fillRef then opaqAt n (o + 4) else 0), img (o + 8) (if p.1.freeRef then opaqAt n (o + 8) else 0)]

/-- A warp record (R82) at an offset. The header of an exited warp holds the PC at which it ended: it has no blocking instruction, and the spec names
no PC for it (DESIGN CHOICE, notes/assumptions/82.md). -/
def State.warpWords (s : State) (n d off : Nat) (w : Warp) : List ImgWord :=
  let head := [img off (BitVec.ofNat 32 w.pc.toNat), img (off + 4) (BitVec.ofNat 32 (w.pc.toNat / 2 ^ 32)), img (off + 8) w.wake,
    img (off + 12) w.roleWord]
  if w.status ≠ .running then head
  else
    let trap : Word := match w.trapAt with
      | some i => BitVec.ofNat 32 (2 ^ 31 + i)
      | none => 0
    head ++ [img (off + 0x10) w.emask, img (off + 0x14) (w.fmt.setWidth 32), img (off + 0x18) w.aflags,
        img (off + 0x1C) (BitVec.ofNat 32 w.sdepth), img (off + 0x20) trap]
      ++ (w.s.zipIdx.map fun p => (off + 0x40 + 4 * p.2, p.1, w.spsn p.2))
      ++ (w.p.zipIdx.map fun p => img (off + 0x140 + 4 * p.2) p.1)
      ++ ((List.range 15).flatMap fun k =>
        [img (off + 0x160 + 8 * k) (s.keyStatus d w k), img (off + 0x164 + 8 * k) (opaqAt n (off + 0x164 + 8 * k))])
      ++ (w.carry.zipIdx.flatMap fun p => (p.1.words.zipIdx).map fun q => (off + 0x1E0 + 272 * p.2 + 4 * q.2, q.1.1, q.1.2))
      ++ (w.stack.reverse.zipIdx.flatMap fun p => (p.1.words.zipIdx).map fun q => (off + 0x620 + 16 * p.2 + 4 * q.2, q.1, p.1.bad))
      ++ (w.v.zipIdx.flatMap fun p => (p.1.val.zipIdx).map fun q => (off + 0x820 + 128 * p.2 + 4 * q.2, q.1, p.1.psn.getLsbD q.2))

/-- The part of an image before the scratchpad; the tile occupancy word holds WIDE of tn in bit 16 + n (R267). -/
def Workgroup.headWords (g : Workgroup) (r : Record) (n : Nat) : List ImgWord :=
  let bm := maskOf (g.bslots.map BSlot.occ)
  let tm := maskOf (g.tiles.map Tile.occ) + 2 ^ 16 * maskOf (g.tiles.map fun t => t.occ && t.wide)
  [img 0 r.part, img 4 (BitVec.ofNat 32 r.nwarp), img 8 (BitVec.ofNat 32 tm),
      img 0xC (BitVec.ofNat 32 g.launchQ.length), img 0x10 (BitVec.ofNat 32 bm), img 0x14 (BitVec.ofNat 32 (bm / 2 ^ 32))]
    ++ (g.bars.zipIdx.flatMap fun p =>
      let o := 0x40 + 16 * p.2
      [img o p.1.word, img (o + 4) (opaqAt n (o + 4)), img (o + 8) (opaqAt n (o + 8)), img (o + 12) (opaqAt n (o + 12))])
    ++ (g.rings.zipIdx.flatMap fun p => (p.1.record.zipIdx).map fun q => img (0x140 + 16 * p.2 + 4 * q.2) q.1)
    ++ (g.launchQ.zipIdx.flatMap fun p =>
      [img (0x1C0 + 8 * p.2) (BitVec.ofNat 32 p.1.addr), img (0x1C4 + 8 * p.2) (BitVec.ofNat 32 (p.1.addr / 2 ^ 32))])

/-- The blocks of an image: offset, length, bytes, marks. -/
def Workgroup.blocks (g : Workgroup) (r : Record) : List (Nat × Nat × Bytes × List Nat) :=
  let tiles := (g.tiles.filter Tile.occ).zipIdx.map fun p =>
    (0x200 + r.scr * 65536 + p.2 * r.acc * 4096, r.acc * 4096, p.1.bytes, p.1.psn)
  let b0 := 0x200 + r.scr * 65536 + (g.tiles.filter Tile.occ).length * r.acc * 4096
  let slots := (g.bslots.filter BSlot.occ).zipIdx.map fun p => (b0 + p.2 * 4096, 4096, p.1.bytes, p.1.psn)
  (0x200, r.scr * 65536, g.scratch, g.scrPsn) :: (tiles ++ slots)

/-- The offsets of the ring-slot states: ring number, offset (R80). -/
def Workgroup.ringOffsets (g : Workgroup) (r : Record) : List (Nat × Nat) :=
  let b := 0x200 + r.scr * 65536 + (g.tiles.filter Tile.occ).length * r.acc * 4096 + (g.bslots.filter BSlot.occ).length * 4096
  (g.rings.zipIdx.foldl (fun (p : Nat × List (Nat × Nat)) x =>
    if x.1.n = 0 then p else (p.1 + 16 + 16 * x.1.n, p.2 ++ [(x.2, p.1)])) (b, [])).2

/-- All words of an image outside its blocks. -/
def State.imageWords (s : State) (wi : Nat) (g : Workgroup) (r : Record) (n : Nat) : List ImgWord :=
  g.headWords r n ++ ((g.ringOffsets r).flatMap fun p => (g.ring p.1).slotWords n p.2)
    ++ ((s.recordOffsets wi g r).flatMap fun p => s.warpWords n (coreDie g.core) p.1 p.2.2)

/-- The bytes of an image (R306: rounded up to 4 KiB). -/
def State.imageSize (s : State) (wi : Nat) (g : Workgroup) (r : Record) : Nat :=
  (g.warpBase r + ((s.ordinary wi).map fun p => warpRecord p.2).sum + 4095) / 4096 * 4096

/-- An image written to physical memory from a key. -/
def State.writeImage (s : State) (key size : Nat) (blocks : List (Nat × Nat × Bytes × List Nat)) (ws : List ImgWord) : State :=
  let s := s.zeroFrame key size
  let s := blocks.foldl (fun s b =>
    { s with mem := Memory.paste s.mem (key + b.1) b.2.1 b.2.2.1, memPsn := (b.2.2.2.map fun k => (key + b.1) / 4 + k).foldl Marks.add s.memPsn }) s
  ws.foldl (fun s w => { s with mem := Memory.setN s.mem (key + w.1) 4 w.2.1.toNat
                                memPsn := if w.2.2 then Marks.add s.memPsn ((key + w.1) / 4) else s.memPsn }) s

/-- The offsets whose words carry a check code (R390): key status words and OPAQ fields. -/
def State.codeWords (s : State) (wi : Nat) (g : Workgroup) (r : Record) (n : Nat) : List (Nat × Word) :=
  let bars := (List.range 16).flatMap fun b => [0x44 + 16 * b, 0x48 + 16 * b, 0x4C + 16 * b]
  let rings := (g.ringOffsets r).flatMap fun p => (List.range (g.ring p.1).n).flatMap fun i => [p.2 + 20 + 16 * i, p.2 + 24 + 16 * i]
  let keys := (s.recordOffsets wi g r).flatMap fun p =>
    if p.2.2.status = .running then (List.range 30).map fun i => p.1 + 0x160 + 4 * i else []
  ((s.imageWords wi g r n).filter fun w => (bars ++ rings ++ keys).contains w.1).map fun w => (w.1, w.2.1)

/-! ### Eviction (R55 to R57, R306) -/

/-- Whether a warp waits at a blocking point (R55). -/
def Warp.blocked (w : Warp) : Bool :=
  match w.wait with
  | .bwait _ _ | .launch => true
  | .ringAcq _ consumer => consumer
  | .kwait _ _ far => far
  | _ => false

/-- Operations that the save waits for (R57, R199): the commands of the core's engines, TIME, and accesses of the scratchpad and of private areas.
Other operations stay tracked; a result for a register that comes while the workgroup is out is written after its restore
(notes/assumptions/41.md). -/
def State.saveWaits (s : State) (wi : Nat) : Bool :=
  s.ops.any fun o => o.wg == wi && ((o.acc.any fun a => a.space != .global && a.stage != .done) || (o.status != .complete && (match o.kind with
    | .cmd _ => o.status.live
    | .time _ => true
    | _ => false)))

/-- The first range of a die's save pool that holds n bytes (R306). -/
def State.saveRoom (s : State) (d n : Nat) : Option SaveRange :=
  let base := bitsOf (s.reg (maDie d 0x20)) 0 24 * 2 ^ 16
  let size := (s.reg (maDie d 0x24)).toNat * 2 ^ 16
  let used := (s.die d).saves
  let starts := base :: used.map fun r => r.base + r.size
  let ok := fun b => decide (base ≤ b) && decide (b + n ≤ base + size) && !(used.any fun r => decide (r.base < b + n) && decide (b < r.base + r.size))
  ((sortBy id starts).find? ok).map fun b => { die := d, base := b, size := n }

/-- The private lines of a workgroup's warps leave its L1 for the cluster cache, or for home where that has no way for them (R57, R112). -/
def State.flushPriv (s : State) (wi : Nat) (g : Workgroup) (gr : Grid) : State :=
  let mine := fun (l : Line) => l.isPriv && l.asid == gr.asid && (s.ordinary wi).any fun p =>
    let a := privAddr p.2 g gr.lrec 0 0
    decide (a ≤ l.line * 128) && decide (l.line * 128 < a + 32 * gr.lrec.privSize)
  let ls := (s.core g.core).l1.filter fun l => mine l && l.dirty != 0
  let keep := fun (l : Line) => !mine l
  let s := s.modCore g.core fun c => { c with l1 := c.l1.filter keep }
  let cl := coreCl g.core
  ls.foldl (fun s l =>
    if cacheRoom 2 4096 (s.cluster cl).cache l.asid l.line then s.modCluster cl fun c => { c with cache := writeBackInto c.cache l }
    else s.writeLineHome l) s

/-- The workgroup's MCLDs that have not reached their slice are refused: it is no longer a member (R250). -/
def State.refuseMclds (s : State) (wi : Nat) : State :=
  (List.range s.ops.length).foldl (fun s i => match s.ops[i]? with
    | some o => match o.kind with
      | .mcld .. => if o.wg = wi ∧ o.status ≠ .complete then s.mcldDone i (mcldStatus 6 0 0) else s
      | _ => s
    | none => s) s

/-- WORKGROUP_EVICT (R55 to R57, R305, R306): the eviction step. -/
def execWorkgroupEvict (wg : Nat) (s : State) : Out :=
  .next (match s.wgs[wg]? with
    | none => s
    | some g => match s.grids[g.grid]? with
      | none => s
      | some gr =>
        let d := coreDie g.core
        let live := s.warps.filter fun w => w.wg == wg && w.status == .running
        if g.status ≠ .running ∨ !g.preempt ∨ live.any (fun w => w.handler.isSome || w.masked || !w.blocked) ∨ s.stopped wg g
            ∨ s.saveWaits wg then s
        else match s.saveRoom d (s.imageSize wg g gr.lrec) with
          | none => s
          | some room =>
            let s := ((s.withdrawAll wg).refuseMclds wg).drainCore g.core
            let s := s.flushPriv wg g gr
            match s.wgs[wg]? with
            | none => s
            | some g =>
              let key := physKey room.die room.base
              let codes := s.codeWords wg g gr.lrec s.stamp
              let s := s.writeImage key room.size (g.blocks gr.lrec) (s.imageWords wg g gr.lrec s.stamp)
              let s := s.modDie d fun x => { x with saves := room :: x.saves }
              let s := s.modWg wg fun g => { g with status := .evicted, preempt := false, saved := some room, codes := codes, freed := 0 }
              -- from now on a warp's AFLAGS collect what its operations set while it is out (R67)
              let out := fun (w : Warp) => if w.wg == wg then { w with aflags := 0 } else w
              { s with stamp := s.stamp + 1, warps := s.warps.map out })

/-! ### Termination (R382) -/

/-- The PC of the lowest-numbered live warp of a workgroup, ordinary warps before handler warps (R386). -/
def State.firstPc (s : State) (wi : Nat) : Nat :=
  let pcOf := fun (ordinary : Bool) => (s.warps.find? fun w => w.wg == wi && w.status == .running && w.handler.isNone == ordinary).map fun w => w.pc.toNat
  ((pcOf true).or (pcOf false)).getD 0

/-- A workgroup terminated, with one record (R382, R386). -/
def State.terminate (s : State) (wi kind info info2 : Nat) : State :=
  match s.wgs[wi]? with
  | none => s
  | some g => match s.grids[g.grid]? with
    | none => s
    | some gr =>
      let s := s.logErr (recordWords kind 0 gr.asid g.seq (whereWord g.core 0 0) (s.firstPc wi) (BitVec.ofNat 32 info) (BitVec.ofNat 32 info2))
      let s := s.modGrid g.grid fun g => { g with error := true }
      let s := s.modWg wi fun (g : Workgroup) => { g with status := .terminated, launchQ := [], preempt := false }
      let s := g.launchQ.foldl (fun s e => s.completeOp e.op) s
      (List.range s.warps.length).foldl (fun s i => match s.warps[i]? with
        | some w => if w.wg = wi ∧ w.status = .running then s.endWarp i .killed else s
        | none => s) s

/-- The number of live warps of a workgroup. -/
def State.liveWarps (s : State) (wi : Nat) : Nat := (s.warps.filter fun w => w.wg == wi && w.status == .running).length

/-! ### The checks of an image (R390) -/

/-- Whether the bits of a mask are clear. -/
def clear (v : Word) (m : Nat) : Bool := (v &&& BitVec.ofNat 32 m) == 0

/-- The checks of a ring record at an offset. -/
def ringChecks (rd : Nat → Word) (o : Nat) : List (Nat × Bool) :=
  let w0 := rd o
  let w1 := rd (o + 4)
  let n := bitsOf w0 26 6 + 1
  let live := bitsOf w0 26 6 != 0
  [(o, clear w0 0x03E00000), (o + 4, clear w1 0xF && (!live || (decide (bitsOf w1 11 7 + bitsOf w1 4 7 ≤ n) && decide (bitsOf w1 24 6 < n)
      && decide (bitsOf w1 18 6 < n)))), (o + 8, clear (rd (o + 8)) 0xFFE00000), (o + 12, rd (o + 12) == 0)]

/-- The checks of a ring-slot state. -/
def slotChecks (rd : Nat → Word) (o n : Nat) : List (Nat × Bool) :=
  let count := fun b => ((List.range n).filter fun i => (rd (o + 16 + 16 * i)).getLsbD b).length
  [(o, clear (rd o) 0xFFFF8080 && bitsOf (rd o) 0 7 == count 0 && bitsOf (rd o) 8 7 == count 2), (o + 4, rd (o + 4) == 0),
      (o + 8, rd (o + 8) == 0), (o + 12, rd (o + 12) == 0)]
    ++ (List.range n).flatMap fun i => [(o + 16 + 16 * i, clear (rd (o + 16 + 16 * i)) 0xFFFFFFF0), (o + 28 + 16 * i, rd (o + 28 + 16 * i) == 0)]

/-- The checks of a warp record. -/
def warpChecks (rd : Nat → Word) (o ndesc : Nat) : List (Nat × Bool) :=
  let wake := rd (o + 8)
  let role := rd (o + 12)
  let kind := bitsOf wake 0 4
  let arg := bitsOf wake 4 4
  let allot := bitsOf role 0 5
  let head := [(o + 4, clear (rd (o + 4)) 0xFFF00000),
    (o + 8, clear wake 0xFFFFFE00 && (kind == 1 || (kind == 2 && decide (arg < 8)) || (kind == 3 && decide (arg < 15)) || kind == 4 || kind == 15)),
    (o + 12, clear role 0xFFFF80E0 && ((allot == 0 && kind == 15) || (allot != 0 && decide (allot ≤ 16) && decide (bitsOf role 12 3 < ndesc))))]
  if allot = 0 then head ++ (List.range (0x810 / 4)).map fun i => (o + 16 + 4 * i, rd (o + 16 + 4 * i) == 0)
  else
    let depth := (rd (o + 0x1C)).toNat
    let trap := rd (o + 0x20)
    head ++ [(o + 0x14, clear (rd (o + 0x14)) 0xFFFF4000), (o + 0x18, clear (rd (o + 0x18)) 0xFF80FF80),
        (o + 0x20, clear trap 0x7FFFF000 && (!trap.getLsbD 31 || decide (bitsOf trap 0 12 < depth)))]
      ++ ((List.range 7).map fun i => (o + 0x24 + 4 * i, rd (o + 0x24 + 4 * i) == 0))
      ++ [(o + 0x15C, rd (o + 0x15C) == 0), (o + 0x1D8, rd (o + 0x1D8) == 0), (o + 0x1DC, rd (o + 0x1DC) == 0)]
      ++ ((List.range 4).flatMap fun c => (List.range 3).map fun i => (o + 0x1E0 + 272 * c + 260 + 4 * i, rd (o + 0x1E0 + 272 * c + 260 + 4 * i) == 0))
      ++ ((List.range 32).map fun e => (o + 0x628 + 16 * e, clear (rd (o + 0x628 + 16 * e)) 3))

/-- Where the parts of an image lie, read from its own words: ring-slot states (ring, offset, N) and warp records. -/
def imageRings (rd : Nat → Word) (r : Record) : List (Nat × Nat × Nat) × Nat :=
  let tiles := ((List.range 16).filter fun t => (rd 8).getLsbD t).length
  let slots := ((List.range 64).filter fun m => if m < 32 then (rd 0x10).getLsbD m else (rd 0x14).getLsbD (m - 32)).length
  let b := 0x200 + r.scr * 65536 + tiles * r.acc * 4096 + slots * 4096
  (List.range 8).foldl (fun (p : List (Nat × Nat × Nat) × Nat) x =>
    let m := bitsOf (rd (0x140 + 16 * x)) 26 6
    if m = 0 then p else (p.1 ++ [(x, p.2, m + 1)], p.2 + 16 + 16 * (m + 1))) ([], b)

/-- The offsets of the warp records of an image. -/
def imageWarps (rd : Nat → Word) (r : Record) : List Nat :=
  ((List.range r.nwarp).foldl (fun (p : List Nat × Nat) _ =>
    (p.1 ++ [p.2], p.2 + 0x820 + 1024 * bitsOf (rd (p.2 + 12)) 0 5)) ([], (imageRings rd r).2)).1

/-- Every check of an image with the offset it concerns (R390). -/
def imageChecks (rd : Nat → Word) (g : Workgroup) (r : Record) : List (Nat × Bool) :=
  [(0, rd 0 == r.part), (4, rd 4 == BitVec.ofNat 32 r.nwarp)]
    ++ ((List.range 10).map fun i => (0x18 + 4 * i, rd (0x18 + 4 * i) == 0))
    ++ ((List.range 8).map fun i => (0x1E0 + 4 * i, rd (0x1E0 + 4 * i) == 0))
    ++ ((List.range 16).map fun b =>
      let w := rd (0x40 + 16 * b)
      (0x40 + 16 * b, decide (bitsOf w 8 8 < bitsOf w 0 8) || (bitsOf w 0 8 == 0 && bitsOf w 8 8 == 0)))
    ++ ((List.range 8).flatMap fun x => ringChecks rd (0x140 + 16 * x))
    ++ ((imageRings rd r).1.flatMap fun p => slotChecks rd p.2.1 p.2.2)
    ++ ((imageWarps rd r).flatMap fun o => warpChecks rd o r.ndesc)
    ++ g.codes.map fun p => (p.1, rd p.1 == p.2)

/-- The lowest failing offset. -/
def worstOffset (cs : List (Nat × Bool)) : Option Nat :=
  cs.foldl (fun b p => if p.2 then b else match b with
    | some x => some (min x p.1)
    | none => some p.1) none

/-! ### Restore (R58, R308, R390) -/

/-- A barrier with the word of an image. -/
def Barrier.load (b : Barrier) (w : Word) : Barrier := { b with members := bitsOf w 0 8, arrived := bitsOf w 8 8, phase := bitsOf w 16 16 }

/-- A ring with its record and, where it has one, its slot state. -/
def Ring.load (r : Ring) (rd : Nat → Word) (o : Nat) (slots : Option Nat) : Ring :=
  let w0 := rd o
  let w1 := rd (o + 4)
  match slots with
  | none => { pwait := r.pwait, cwait := r.cwait }
  | some so =>
    let n := bitsOf w0 26 6 + 1
    { r with
      n := n, base := bitsOf w0 0 21, slotb := bitsOf (rd (o + 8)) 0 21, word3 := rd (o + 12)
      filled := bitsOf w1 4 7, free := bitsOf w1 11 7, pidx := bitsOf w1 18 6, cidx := bitsOf w1 24 6, pph := w1.getLsbD 30, cph := w1.getLsbD 31
      oprod := bitsOf (rd so) 0 7, ocons := bitsOf (rd so) 8 7
      slots := (List.range n).map fun i =>
        let m := rd (so + 16 + 16 * i)
        let x := r.slot i
        { x with pacq := m.getLsbD 0, pcom := m.getLsbD 1, cacq := m.getLsbD 2, crel := m.getLsbD 3 } }

/-- A carry register from its record. -/
def carryLoad (rd : Nat → Word) (bad : Nat → Bool) (o : Nat) : Carry :=
  { h := lanes.map fun j => rd (o + 4 * j), g := lanes.map fun j => rd (o + 128 + 4 * j), hor := rd (o + 256)
    psn := laneMask fun j => bad (o + 4 * j) || bad (o + 128 + 4 * j) }

/-- A warp with its record's fields, in a new slot; flags set while it was out are added (R67), the CLKHI latch is 0 (R79). -/
def Warp.load (w : Warp) (rd : Nat → Word) (bad : Nat → Bool) (o slot : Nat) : Warp :=
  let role := rd (o + 12)
  let allot := bitsOf role 0 5
  if allot = 0 then { w with status := if w.status = .running then .ended else w.status }
  else
    let depth := (rd (o + 0x1C)).toNat
    let hw := min 32 depth
    let trap := rd (o + 0x20)
    { w with
      slot := slot, status := .running, pc := pcOf (rd o) (rd (o + 4)), role := Role.ofCode (bitsOf role 8 2), cls := bitsOf role 10 2
      desc := bitsOf role 12 3, allot := allot, emask := rd (o + 0x10), fmt := BitVec.ofNat 16 (rd (o + 0x14)).toNat, aflags := rd (o + 0x18) ||| w.aflags
      s := (List.range 64).map fun i => rd (o + 0x40 + 4 * i)
      sPsn := BitVec.ofNat 64 (maskOf ((List.range 64).map fun i => bad (o + 0x40 + 4 * i)))
      p := (List.range 7).map fun i => rd (o + 0x140 + 4 * i)
      carry := (List.range 4).map fun c => carryLoad rd bad (o + 0x1E0 + 272 * c)
      stack := ((List.range hw).map fun e =>
        { StackEntry.ofWords (rd (o + 0x620 + 16 * e)) (rd (o + 0x624 + 16 * e)) (rd (o + 0x628 + 16 * e)) (rd (o + 0x62C + 16 * e)) with
          bad := (List.range 4).any fun x => bad (o + 0x620 + 16 * e + 4 * x) }).reverse
      spilled := depth - hw, trapAt := if trap.getLsbD 31 then some (bitsOf trap 0 12) else none
      v := (List.range (8 * allot)).map fun n =>
        { val := lanes.map fun l => rd (o + 0x820 + 128 * n + 4 * l), psn := laneMask fun l => bad (o + 0x820 + 128 * n + 4 * l) }
      clkLatch := 0, wait := .none, yielded := [], unsel := 0, starved := false }

/-- The workgroup part of an image taken up. -/
def Workgroup.load (g : Workgroup) (s : State) (key : Nat) (rd : Nat → Word) (r : Record) (core : Nat) : Workgroup :=
  let block := fun off n => (Memory.slice s.mem (key + off) n,
    (s.memPsn.filter fun k => decide ((key + off) / 4 ≤ k) && decide (k < (key + off + n) / 4)).map fun k => k - (key + off) / 4)
  let occT := fun t => (rd 8).getLsbD t
  let occB := fun m => if m < 32 then (rd 0x10).getLsbD m else (rd 0x14).getLsbD (m - 32)
  let b0 := 0x200 + r.scr * 65536
  let b1 := b0 + ((List.range 16).filter occT).length * r.acc * 4096
  let tileAt := fun t => block (b0 + ((List.range t).filter occT).length * r.acc * 4096) (r.acc * 4096)
  let slotAt := fun m => block (b1 + ((List.range m).filter occB).length * 4096) 4096
  let rings := (imageRings rd r).1
  -- an entry that only the image holds belongs to no LAUNCH
  let q := (List.range (min 4 (rd 0xC).toNat)).map fun i =>
    { g.launchQ.getD i { addr := 0, op := 2 ^ 62 } with addr := (rd (0x1C0 + 8 * i)).toNat + 2 ^ 32 * (rd (0x1C4 + 8 * i)).toNat }
  { g with
    core := core, status := .running, restored := true, saved := none, codes := []
    scratch := (block 0x200 (r.scr * 65536)).1, scrPsn := (block 0x200 (r.scr * 65536)).2
    tiles := (List.range 16).map fun t =>
      if occT t then { occ := true, wide := (rd 8).getLsbD (16 + t), bytes := (tileAt t).1, psn := (tileAt t).2 } else {}
    bslots := (List.range 64).map fun m => if occB m then { occ := true, bytes := (slotAt m).1, psn := (slotAt m).2 } else {}
    bars := g.bars.zipIdx.map fun p => p.1.load (rd (0x40 + 16 * p.2))
    rings := g.rings.zipIdx.map fun p => p.1.load rd (0x140 + 16 * p.2) ((rings.find? fun x => x.1 == p.2).map fun x => x.2.1)
    launchQ := q }

/-- WORKGROUP_RESTORE (R58, R302, R307, R308, R390): the restorable workgroup with the lowest placement sequence number returns to a
core of its cluster, or is terminated when its image fails a check. -/
def execWorkgroupRestore (wg : Nat) (s : State) : Out :=
  .next (match s.wgs[wg]? with
    | none => s
    | some g => match s.grids[g.grid]?, g.saved, s.restoreCore wg with
      | some gr, some room, some core =>
        let sooner := (List.range s.wgs.length).any fun j => s.restorable j && (match s.wgs[j]? with
          | some x => decide (x.seq < g.seq)
          | none => false)
        if !s.restorable wg || sooner then s
        else
          let key := physKey room.die room.base
          let rd := fun o => Memory.word s.mem (key + o)
          let bad := fun o => Marks.has s.memPsn ((key + o) / 4)
          let s1 := s.modDie room.die fun x => { x with saves := x.saves.filter fun r => r != room }
          match worstOffset (imageChecks rd g gr.lrec) with
          | some off => s1.terminate wg 6 off 0
          | none =>
            let slots := s1.freeSlots core
            let live := (imageWarps rd gr.lrec).map fun o => bitsOf (rd (o + 12)) 0 5 != 0
            let slotOf := fun n => slots.getD (((List.range n).filter fun i => live.getD i false).length) 0
            let s2 := ((s1.ordinary wg).zip (imageWarps rd gr.lrec)).foldl (fun (s : State) p =>
              s.modWarp p.1.1 fun w =>
                let w := w.load rd bad p.2 (slotOf p.1.2.num)
                { w.setWords w.owed with owed := [] }) s1
            s2.modWg wg fun g => g.load s key rd gr.lrec core
      | _, _, _ => s)

end Sys2Proof.Machine
end

