-- ==== Sys2Proof/Machine/Ready.lean ====
section
/-! DEFINITION. Fetching an instruction (R157), the per-warp scoreboard (R225, R248, R253, R261), readiness and the pick of each
scheduler (R309 to R312), breakpoints met at the pick (R346). -/

namespace Sys2Proof.Machine

open Sys2Proof

/-! ### Fetch -/

/-- What fetching the instruction at a PC comes to. -/
inductive Fetched where
  | wait                             -- its page waits for a frame
  | fault (f : Fault)
  | got (w : Word) (i : Option Instr) -- the first word, and the instruction where it is one
  deriving DecidableEq, Repr

/-- One instruction word, read at its home; none while its page waits for a frame. -/
def State.codeWord (s : State) (asid va : Nat) : Except (Option Fault) Word :=
  match s.place asid va with
  | .here k _ _ => .ok (Memory.word s.mem k)
  | .alloc _ _ | .absent => .error none
  | .foreign _ _ _ => .error (some .fetchForeign)
  | .unmapped => .error (some .fetchUnmapped)

/-- n words from an address up, wrapping as the PC does. -/
def State.fetchWords (s : State) (asid : Nat) : Nat → Nat → Except (Option Fault) (List Nat)
  | 0, _ => .ok []
  | n + 1, va => match s.codeWord asid va with
    | .error e => .error e
    | .ok w => match s.fetchWords asid n ((va + 4) % 2 ^ 52) with
      | .error e => .error e
      | .ok ws => .ok (w.toNat :: ws)

/-- The fetch (R157): the first word alone gives the length. -/
def State.fetch (s : State) (asid : Nat) (pc : PC) : Fetched :=
  match s.codeWord asid pc.toNat with
  | .error none => .wait
  | .error (some f) => .fault f
  | .ok w => match s.fetchWords asid (frameLen w.toNat - 1) ((pc.toNat + 4) % 2 ^ 52) with
    | .error none => .wait
    | .error (some f) => .fault f
    | .ok ws => .got w (match decodeWords (w.toNat :: ws) with
      | .ok i => some i
      | .error _ => none)

/-- The instruction fetched, where it is one. -/
def Fetched.instr? : Fetched → Option Instr
  | .got _ i => i
  | _ => none

/-- Whether it lies in the uniform set (R157). -/
def Fetched.uniform : Fetched → Bool
  | .got w _ => w.getLsbD 31
  | _ => false

/-! ### The scoreboard -/

/-- The scalar registers an instruction reads and those it writes. -/
def scalarRegs (i : Instr) : List Nat × List Nat :=
  match i with
  | .movScalar _ a _ => ([a.val], [])
  | .smov d a | .snot d a | .sclz d a | .spopc d a => ([a.val], [d.val])
  | .sadd d a b | .ssub d a b | .smul d a b | .smulhU d a b | .smulhS d a b | .sdivu d a b | .sremu d a b | .sand d a b | .sor d a b
  | .sxor d a b | .sshl d a b | .sshr d a b | .ssra d a b | .sminU d a b | .sminS d a b | .smaxU d a b | .smaxS d a b | .slea d a b _
  | .scmp _ d a b => ([a.val, b.val], [d.val])
  | .ssel d a b => ([d.val, a.val, b.val], [d.val])
  | .smovi d _ | .smoviLiteral d _ | .srd d _ | .emrd d | .sfmtrd d | .kqry d _ | .bqry d _ | .mcleave d _ => ([], [d.val])
  | .sld d a sz _ _ => (span a 2, span d (if sz == .b64 then 2 else 1))
  | .sst d a sz _ _ => (span a 2 ++ span d (if sz == .b64 then 2 else 1), [])
  | .swr a _ | .emwr a | .sfmt a | .ksteal _ a _ | .binit _ a => ([a.val], [])
  | .brcNz c _ | .brcZ c _ => ([c.val], [])
  | .trap _ => ([], [62, 63])
  | .temit a b => ([a.val, b.val], [])
  | .time d => ([], span d 2)
  | .ksend _ b _ => (span b 2, [])
  | .krecv d a | .krecvTry d a => ([a.val], [d.val])
  | .mcjoin d a b _ => ([a.val, b.val], [d.val])
  | .mcld x y _ _ _ _ => (span x 2 ++ [y.val], [y.val])
  | .amsend x y _ _ _ => (span x 2 ++ span y 8, [])
  | .nred x y op _ _ _ => (span x (if op == .addI64 then 2 else 1) ++ [y.val], span x (if op == .addI64 then 2 else 1) ++ [y.val])
  | .launch x _ _ _ => (span x 2, [])
  | .tcfg _ y _ _ | .tlda _ y _ _ _ | .tldb _ y _ _ _ | .tst _ y _ _ _ | .cld _ y _ _ | .cst _ y _ _ => ([y.val], [])
  | .cpyLd x y _ _ _ | .cpySt x y _ _ _ | .cpysLd x y _ _ _ | .cpysSt x y _ _ _ | .cpyg x y _ _ _ | .cpyx x y _ _ _ =>
    (span x 2 ++ span y 4, [y.val + 3])
  | .cpyc x y _ _ _ => (span x 2 ++ span y 4, [y.val + 2, y.val + 3])
  | .rinit _ y => (span y 3, [])
  | .rputAcq _ y _ | .rgetAcq _ y _ => ([], [y.val])
  | .rputCmt _ y _ | .rgetRel _ y _ => ([y.val], [])
  | _ => ([], [])

/-- Whether an operation still writes a register that an instruction names. -/
def Op.clashes (o : Op) (i : Instr) : Bool :=
  let (vs, ss) := o.pendingRegs
  let (rd, wr) := scalarRegs i
  (laneRegs i).any vs.contains || (rd ++ wr).any ss.contains

/-- The oldest operation of a warp that holds an instruction back. -/
def State.heldBy (s : State) (wi : Nat) (i : Instr) : Option Op := s.ops.find? fun o => o.warp == wi && o.clashes i

/-! ### Waiting and ready (R309) -/

/-- A running warp with its workgroup and grid. -/
def State.ctxAt (s : State) (i : Nat) : Option Ctx := ({ s with cur := i }).issuer

/-- The key that an instruction produces to (R133). -/
def producer (i : Instr) : Option Nat :=
  match i with
  | .ld _ m _ _ | .st _ m _ _ | .lds _ m _ _ | .sts _ m _ _ | .atom _ m _ _ | .red _ m _ _ | .atomcas _ m _ _ => some m.prod
  | .ksteal d _ _ => some d
  | .mcld _ _ _ k _ _ | .amsend _ _ _ k _ | .nred _ _ _ k _ _ | .launch _ _ k _ | .tcfg _ _ k _ | .tlda _ _ k _ _ | .tldb _ _ k _ _
  | .mma _ _ _ k _ _ | .tzero _ k _ | .tst _ _ k _ _ | .tcvt _ _ k _ _ | .ascan _ _ _ k _ | .cld _ _ k _ | .cst _ _ k _
  | .cpyLd _ _ k _ _ | .cpySt _ _ k _ _ | .cpysLd _ _ k _ _ | .cpysSt _ _ k _ _ | .cpyc _ _ k _ _ | .cpyg _ _ k _ _ | .cpyx _ _ k _ _
  | .rputAcq _ _ k | .rgetAcq _ _ k => some k
  | _ => none

/-- Whether an instruction does nothing, or traps, before it could produce: no acting lane (R40), a matrix command without convergence
(R260), a ring that is not set up (R377). -/
def Ctx.producesNothing (c : Ctx) (i : Instr) : Bool :=
  match i with
  | .ld _ m _ _ | .st _ m _ _ | .lds _ m _ _ | .sts _ m _ _ | .atom _ m _ _ | .red _ m _ _ | .atomcas _ m _ _ => c.w.acting m.grd == 0
  | .rputAcq x _ _ | .rgetAcq x _ _ => (c.g.ring x).n == 0
  | i => i.isMatrix && c.w.emask != BitVec.allOnes 32

/-- The set that an instruction would give a key whole, past 4,095 members (R140). -/
def overLimit (d : Nat) (set : List Member) : Wait := if d ≠ 15 ∧ 4095 < setCount set then .keyLimit set 0 else .none

def isMcld : Instr → Bool
  | .mcld .. => true
  | _ => false

/-- The stall of a ring acquisition that would be granted (R140). -/
def State.ringStall (s : State) (i : Nat) (c : Ctx) (ring : Nat) (consumer : Bool) (y k : Nat) : Wait :=
  if (((c.g.ring ring).queue consumer).map RingWait.warp).headD i = i then
    match s.doAcquire c.w.wg ring i consumer y k with
    | .limit ms => .keyLimit ms 0
    | _ => .none
  else .none

/-- The issue stalls that an instruction would meet (R133, R140, R235, R256, R261, R309): a CLOSED key, a key at its limit, a full queue, the
splice store, the pending-launch queue. -/
def State.stallOf (s : State) (i : Nat) (c : Ctx) (j : Instr) : Wait :=
  if !legalAt j c.w c.gr || c.producesNothing j then .none
  else match (producer j).bind c.w.produceWait with
    | some x => x
    | none =>
      if (j.isMatrix || j.isCopy) && !isMcld j then
        if (if j.isCopy then 64 else 32) ≤ s.queueLength c.g.core j.isCopy then .queueFull else .none
      else match j with
        | .kfork d a => overLimit d (c.w.keySet a)
        | .kjoin d a b => overLimit d (joinSets (c.w.keySet a) (c.w.keySet b))
        | .krecv _ a | .krecvTry _ a => match c.w.recvq, c.w.idleKey (recvMask (c.w.sreg a)) with
          | q :: _, some k => overLimit k q.set
          | _, _ => .none
        | .ksend .. => if 64 ≤ s.spliceStore (coreDie c.g.core) then .spliceStore else .none
        | .launch .. => if 4 ≤ c.g.launchQ.length then .launch else .none
        | .rputAcq x y k => s.ringStall i c x false y k
        | .rgetAcq x y k => s.ringStall i c x true y k
        | _ => .none

/-- The tile slots, B slots and carry registers that an instruction reads, and those it writes (R259, R309). -/
def instrUnits (i : Instr) : List Unit3 × List Unit3 :=
  match i with
  | .tcfg x _ _ _ => (Cmd.tcfg x 0).uses
  | .tlda x _ _ _ _ => (Cmd.tlda x 0 none 0).uses
  | .tldb x _ _ _ _ => (Cmd.tldb x 0 none 0).uses
  | .mma x y z _ _ mode => (Cmd.mma x z y (mode.getD 0) 0).uses
  | .tzero x _ _ => (Cmd.tzero x).uses
  | .tst x _ _ _ _ => (Cmd.tst x 0 none).uses
  | .tcvt x y _ _ cw => (Cmd.tcvt x y (cw.getD 0x7F) 0).uses
  | .ascan x y z _ _ => (Cmd.ascan x y z).uses
  | .cld x _ _ _ => (Cmd.cld x 0).uses
  | .cst x _ _ _ => (Cmd.cst x 0).uses
  | _ => ([], [])

/-- The oldest unfinished command whose slot or register the next instruction has to wait for on the scoreboard (R309, R343); how long it
stays busy there, while commands of one slot may stand in the queue (R263), is a free value (notes/assumptions/48.md). -/
def State.unitHeld (s : State) (i : Nat) (c : Ctx) (j : Instr) : Option Nat :=
  let (rd, wr) := instrUnits j
  (List.range s.ops.length).find? fun n => match s.ops[n]? with
    | some o => match o.kind with
      | .cmd x => o.wg == c.w.wg && o.status.live && !Config.slotFree n (s.core c.g.core).clk &&
          (unitsMeet x.uses.2 (rd ++ wr) (o.warp == i) || unitsMeet x.uses.1 wr (o.warp == i))
      | _ => false
    | none => false

/-- Whether a wait at a blocking point, for a translation or a frame that a warp has recorded still lasts; the issue stalls are found anew in
each clk (`stallOf`). -/
def State.waitHolds (s : State) (i : Nat) (c : Ctx) (ins : Option Instr) : Bool :=
  let d := coreDie c.g.core
  match c.w.wait with
  | .none | .score | .trace | .fetch | .slot _ | .counter | .launch | .queueFull | .spliceStore | .closedKey _ | .keyLimit _ _ => false
  | .bwait b par => ((c.g.bar b).phase % 2 == 1) != par
  | .ringAcq r consumer => ((c.g.ring r).queue consumer).any fun x => x.warp == i
  | .kwait k sc _ => !((c.w.keySet k).all fun m => s.memberAt d m sc)
  | .kall sc => !(c.w.allSets.all fun m => s.memberAt d m sc)
  | .grow => c.g.growQ.any fun q => q.warp == i
  | .krecv => c.w.recvq.isEmpty || (match ins with
    | some (.krecv _ a) => (c.w.idleKey (recvMask (c.w.sreg a))).isNone
    | _ => false)
  | .tfence => s.ops.any fun o => o.warp == i && o.flagsLater
  | .probe asid va => s.acbCheck c.g.core asid va false false == .miss
  | .room asid va => !s.privRoom c.g.core asid va

/-- Whether a workgroup's first issue on its core must enter a WGMAP packet (R341). -/
def State.mapDue (s : State) (c : Ctx) : Bool := (!c.g.started || c.g.restored) && s.traces (coreCl c.g.core) c.gr.asid

/-- Whether that packet finds no free entry (R337). -/
def State.mapBlocked (s : State) (c : Ctx) : Bool := s.mapDue c && decide (576 ≤ (s.cluster (coreCl c.g.core)).fifo.length)

/-- A warp held at a blocking point while a pre-emption request is pending (R55, R56). -/
def Ctx.held (c : Ctx) : Bool := c.g.preempt && c.w.blocked && !c.w.masked

/-- Whether a request of the warp waits at a home slice for a tracking counter: the warp stalls at issue (R410). -/
def State.ctrBlocked (s : State) (i : Nat) : Bool :=
  s.ops.any fun o => o.warp == i && o.acc.any fun a => a.noCtr && (a.stage == .held || a.stage == .atCl)

/-- What keeps a warp's next instruction from issuing, beside the waits it has recorded (R309, R343): registers, tile slots, the issue
stalls, a free entry for its WGMAP packet. -/
def State.issueWait (s : State) (i : Nat) (c : Ctx) (f : Fetched) : Wait :=
  if f = .wait then .fetch
  else match f.instr? with
    | none => if s.mapBlocked c then .trace else .none
    | some j =>
      if (s.heldBy i j).isSome then .score
      else match s.unitHeld i c j with
        | some n => .slot n
        | none => match s.stallOf i c j with
          | .none => if s.mapBlocked c then .trace else if s.ctrBlocked i then .counter else .none
          | x => x

/-- What a warp waits for as a clk begins (R309). -/
def State.waitNow (s : State) (i : Nat) (c : Ctx) : Wait :=
  let f := s.fetch c.gr.asid c.w.pc
  if c.held then c.w.wait
  else if s.waitHolds i c f.instr? then match c.w.wait with
    | .kwait k sc _ => .kwait k sc (s.farPending (coreDie c.g.core) (c.w.keySet k))
    | x => x
  else if c.w.psnTrap.isSome then .none
  else s.issueWait i c f

/-- Whether a warp is of a workgroup that runs on a core of a cluster. -/
def Ctx.runsIn (c : Ctx) (cl : Nat) : Bool := coreCl c.g.core == cl && c.g.status == .running

/-- The warps of a cluster as a clk begins: waits that have ended end, a YIELD's list loses what is ready no more (R59). -/
def State.refresh (s : State) (cl : Nat) : State :=
  let waits := fun (i : Nat) (w : Warp) => match s.ctxAt i with
    | some c => if c.runsIn cl then { w with wait := s.waitNow i c } else w
    | none => w
  let ws := s.warps.mapIdx waits
  let goes := fun j => match ws[j]? with
    | some w => w.status == .running && !w.awaits && ((s.wgs[w.wg]?).map Workgroup.status) == some .running
    | none => false
  let holds := fun (i : Nat) (w : Warp) => match s.ctxAt i with
    | some c => if c.runsIn cl then { w with yielded := w.yielded.filter goes } else w
    | none => w
  { s with warps := ws.mapIdx holds }

/-- Whether a warp may issue under the stop logic: not of a stopped workgroup, and in a step not after its one issue (R347, R349). -/
def State.debugLets (s : State) (c : Ctx) : Bool :=
  !s.stopped c.w.wg c.g &&
    !((s.cluster (coreCl c.g.core)).dbg == .stepping && (s.cluster (coreCl c.g.core)).dbgWg == c.w.wg && c.w.issued)

/-- Whether a warp is ready (R309). -/
def State.isReady (s : State) (c : Ctx) : Bool := c.g.status == .running && !c.w.awaits && s.debugLets c

/-! ### Age and class (R310, R311) -/

/-- R310. -/
def Ctx.older (a b : Ctx) : Bool :=
  if a.g.seq != b.g.seq then decide (a.g.seq < b.g.seq)
  else match a.w.handler, b.w.handler with
    | none, none => decide (a.w.num < b.w.num)
    | none, some _ => true
    | some _, none => false
    | some _, some _ => decide (a.w.born < b.w.born)

/-- Class descending, then age. -/
def Ctx.ahead (a b : Ctx) : Bool := if a.w.cls != b.w.cls then decide (b.w.cls < a.w.cls) else a.older b

/-- A ready warp with what it would issue. -/
structure Rdy where
  idx : Nat
  c   : Ctx
  f   : Fetched
  deriving DecidableEq, Repr

/-- The first by class and age. -/
def firstRdy (rs : List Rdy) : Option Rdy :=
  rs.foldl (fun b r => match b with
    | some x => if r.c.ahead x.c then some r else b
    | none => some r) none

/-- The ready warps of a scheduler. -/
def State.readyOf (s : State) (k sch : Nat) : List Rdy :=
  (List.range s.warps.length).filterMap fun i => match s.ctxAt i with
    | some c =>
      if c.g.core = k ∧ c.w.slot % 2 = sch ∧ s.isReady c then some { idx := i, c := c, f := s.fetch c.gr.asid c.w.pc } else none
    | none => none

/-- The lane dot instructions (R216). -/
def isDot : Instr → Bool
  | .dot2Bf16 .. | .dot4Fp8 .. | .dot8N4o .. => true
  | _ => false

/-- Whether two instructions are lane dot instructions of one opcode. -/
def sameDot (a b : Option Instr) : Bool :=
  match a, b with
  | some x, some y => isDot x && x.ctorIdx == y.ctorIdx
  | _, _ => false

/-- The two picks of a scheduler before the ports, and whether the second is a paired dot (R311). -/
def schedule (rs : List Rdy) : Option Rdy × Option Rdy × Bool :=
  let ls := rs.filter fun r => !r.f.uniform
  let lp := firstRdy ls
  let up := firstRdy (rs.filter fun r => r.f.uniform)
  match lp with
  | none => (none, up, false)
  | some l =>
    match firstRdy (ls.filter fun r => r.idx != l.idx && sameDot l.f.instr? r.f.instr?) with
    | some p => (lp, some p, true)
    | none => (lp, up, false)

/-! ### Ports (R312) -/

/-- The core port an instruction uses. -/
inductive Port where
  | memory | matrix | copy | message
  deriving DecidableEq, Repr

def portOf (i : Instr) : Option Port :=
  match i with
  | .ld .. | .st .. | .lds .. | .sts .. | .atom .. | .red .. | .atomcas .. | .sld .. | .sst .. => some .memory
  | .rinit .. | .rputAcq .. | .rputCmt .. | .rgetAcq .. | .rgetRel .. => some .copy
  | .ksend .. | .ksteal .. | .amsend .. | .nred .. | .launch .. | .time .. | .temit .. => some .message
  | i => if i.isMatrix then some .matrix else if i.isCopy then some .copy else none

/-- Lane instructions that write a predicate. -/
def writesPred (i : Instr) : Bool :=
  match i with
  | .cmpU32 .. | .cmpS32 .. | .fcmp .. | .pand .. | .por .. | .pnot .. | .voteAny .. | .voteAll .. | .voteEq .. => true
  | _ => false

/-- Uniform instructions at the predicate port. -/
def usesPred (i : Instr) : Bool :=
  match i with
  | .brany .. | .brall .. | .split .. | .role .. => true
  | _ => false

def isMovScalar (i : Instr) : Bool :=
  match i with
  | .movScalar .. => true
  | _ => false

/-- Whether a scheduler's uniform pick loses a port to its lane pick. -/
def losesLocal (lane uni : Option Instr) : Bool :=
  match lane, uni with
  | some l, some u => (isMovScalar l && !(scalarRegs u).1.isEmpty) || (writesPred l && usesPred u)
  | _, _ => false

/-- A pick: the warp, where it lost a port the PC of the winner, whether it is a paired dot. -/
structure Pick where
  r    : Rdy
  lost : Option PC
  pair : Bool
  deriving DecidableEq, Repr

/-- The picks of a scheduler after its own conflicts. -/
def localPicks (rs : List Rdy) : List (Option Pick) :=
  let (lp, up, pair) := schedule rs
  let lost := if pair then none else match lp, up with
    | some l, some u => if losesLocal l.f.instr? u.f.instr? then some l.c.w.pc else none
    | _, _ => none
  [lp.map fun r => { r := r, lost := none, pair := false }, up.map fun r => { r := r, lost := lost, pair := pair }]

/-- The core port that a pick uses. -/
def Pick.port (p : Pick) : Option Port := if p.lost.isSome || p.pair then none else p.r.f.instr?.bind portOf

/-- The picks of a core, four slots: lane and second of scheduler 0, then of scheduler 1; the older wins a core port. -/
def corePicks (rs0 rs1 : List Rdy) : List (Option Pick) :=
  let ps := localPicks rs0 ++ localPicks rs1
  let beats := fun (p : Pick) (x : Option Pick) => match x with
    | some q => q.port.isSome && q.port == p.port && q.r.idx != p.r.idx && q.r.c.older p.r.c
    | none => false
  ps.map fun x => x.map fun p => match ps.find? (beats p) with
    | some (some q) => if p.port.isSome then { p with lost := some q.r.c.w.pc } else p
    | _ => p

/-! ### Breakpoints (R346) -/

/-- The breakpoint that a warp hits when it is picked. -/
def State.bpAt (s : State) (c : Ctx) : Option Nat :=
  let cl := coreCl c.g.core
  let pc := c.w.pc.toNat
  if c.w.psnTrap.isSome || (c.w.passBp && c.w.stalledAt == some c.w.pc) then none
  else (List.range 4).find? fun n =>
    let lo := s.reg (bpLo cl n)
    lo.getLsbD 0 && bitsOf lo 2 30 == pc % 2 ^ 32 / 4 && bitsOf (s.reg (bpHi cl n)) 0 20 == pc / 2 ^ 32
      && bitsOf (s.reg (bpAsid cl n)) 0 13 == c.gr.asid

/-- Whether a hit is taken: the cluster holds no stopped or stepping workgroup, or this one (R347). -/
def State.takesHit (s : State) (c : Ctx) : Bool :=
  (s.bpAt c).isSome && ((s.cluster (coreCl c.g.core)).dbg == .none || (s.cluster (coreCl c.g.core)).dbgWg == c.w.wg)

/-- Whether an instruction is BINIT, which takes effect after the arrivals of its clk (R241). -/
def isBinit : Option Instr → Bool
  | some (.binit ..) => true
  | _ => false

/-- The order in which the picks of a clk issue: breakpoint hits first, then by physical core and by warp slot, a core's BINIT last (R198,
R241, R263, R337, R347). -/
def State.issueOrder (s : State) (ps : List Rdy) : List Nat :=
  let rank := fun (r : Rdy) =>
    (if s.takesHit r.c then 0 else 2 ^ 20) + 2 ^ 8 * r.c.g.core + (if isBinit r.f.instr? then 2 ^ 7 else 0) + r.c.w.slot
  (sortBy (fun i => ((ps.find? fun r => r.idx == i).map rank).getD 0) (ps.map Rdy.idx))

end Sys2Proof.Machine
end

