-- ==== Sys2Proof/Machine/Sched.lean ====
section
/-! DEFINITION. One core clk of a cluster (R309 to R313), starvation (R313), the watchdog (R60, R388). -/

namespace Sys2Proof.Machine

open Sys2Proof

/-- READY (R353): end of reset. -/
def State.up (s : State) : Bool := (s.reg 0x0010).getLsbD 31

/-- FAIRWIN as it acts (R313). -/
def State.fairwin (s : State) (d : Nat) : Nat := max 64 (bitsOf (s.reg (maDie d 0x14)) 0 16)

/-- WDPERIOD (R60). -/
def State.wdPeriod (s : State) (d : Nat) : Nat := (s.reg (maDie d 0x10)).toNat

/-- The workgroups of a core with a pending pre-emption request that are neither evicted nor stopped (R60, R350, R388). -/
def State.pendingWgs (s : State) (k : Nat) : List Nat :=
  (List.range s.wgs.length).filter fun i => match s.wgs[i]? with
    | some g => g.core == k && g.status == .running && g.preempt && !s.stopped i g
    | none => false

/-- Whether a warp is starved: ready, and unselected for more than FAIRWIN consecutive clk (R313). -/
def State.starving (s : State) (c : Ctx) : Bool := s.isReady c && decide (s.fairwin (coreDie c.g.core) < c.w.unsel)

/-- The starved warps of a core. -/
def State.starvedOf (s : State) (k : Nat) : List (Nat × Ctx) :=
  (List.range s.warps.length).filterMap fun i => match s.ctxAt i with
    | some c => if c.g.core = k ∧ s.starving c then some (i, c) else none
    | none => none

/-- The watchdog's count in a clk (R60). -/
def State.watchdogTick (s : State) (k : Nat) (c : Core) : Core :=
  if s.wdPeriod (coreDie k) = 0 then { c with wd := 0 }
  else if (s.pendingWgs k).isEmpty && (s.starvedOf k).isEmpty then { c with wd := 0 } else { c with wd := c.wd + 1 }

/-- Consecutive clk ready and unselected (R313, R314). A pick that loses its port has not been selected: the spec does not say (DESIGN CHOICE,
notes/assumptions/88.md). -/
def State.countUnselected (s : State) (cl : Nat) (picked : List Nat) (i : Nat) (w : Warp) : Warp :=
  match s.ctxAt i with
  | some c =>
    if c.runsIn cl then
      if s.isReady c && !picked.contains i then
        { w with unsel := w.unsel + 1, starved := decide (s.fairwin (coreDie c.g.core) < w.unsel + 1) }
      else { w with unsel := 0, starved := false }
    else w
  | none => w

/-- Whether a die runs its clock: it has power, and it is not gated or has a workgroup again (R361, R427). -/
def State.dieRuns (s : State) (d : Nat) : Bool :=
  s.up && s.powered && (!(s.die d).gated || s.wgs.any fun g => g.onCore && coreDie g.core == d)

/-- One core clk of a cluster: granules freed in the last one are free (R53), counters, waits that end, the picks of its 24 schedulers (R311,
R312). -/
def State.clockCluster (s : State) (cl : Nat) : State :=
  if !s.clusterPresent cl || !s.dieRuns (cl / 16) then s
  else
    let s := s.modDie (cl / 16) fun d => { d with gated := false }
    let s := { s with wgs := s.wgs.map fun (g : Workgroup) => if coreCl g.core == cl && g.freed != 0 then { g with freed := 0 } else g }
    let s := s.refresh cl
    let cores := (List.range 12).map fun j => 12 * cl + j
    let picks := cores.map fun k => (k, corePicks (s.readyOf k 0) (s.readyOf k 1))
    let won := picks.flatMap fun p => p.2.filterMap fun x => match x with
      | some q => if q.lost.isNone then some q.r else none
      | none => none
    let picked := s.issueOrder won
    let note := fun (x : Option Pick) => x.map fun p => ({ warp := p.r.idx, pc := p.r.c.w.pc, lost := p.lost, pair := p.pair } : LastPick)
    let tick := fun (k : Nat) (c : Core) =>
      if coreCl k == cl then
        let c := s.watchdogTick k c
        { c with clk := (c.clk + 1) % 2 ^ 64, lastPick := ((picks.find? fun p => p.1 == k).map fun p => p.2.map note).getD [] }
      else c
    let cs := s.cores.mapIdx tick
    let ws := s.warps.mapIdx (s.countUnselected cl picked)
    let s := { s with cores := cs, warps := ws, picked := picked }
    s.modCluster cl fun c => { c with clk := (c.clk + 1) % 2 ^ 64, counted := false, stepClk := if c.dbg == .stepping then c.stepClk + 1 else c.stepClk }

/-- STARVATION (R313): a ready warp unselected for more than FAIRWIN consecutive clk is starved. -/
def execStarvation (warp : Nat) (s : State) : Out :=
  .next (match s.ctxAt warp with
    | some c =>
      if s.starving c then s.modWarp warp fun w => { w with starved := true } else s
    | none => s)

/-- The warp starved longest, ties to the older (R388). -/
def starvedLongest (cs : List (Nat × Ctx)) : Option (Nat × Ctx) :=
  cs.foldl (fun b x => match b with
    | some y => if y.2.w.unsel < x.2.w.unsel || (y.2.w.unsel == x.2.w.unsel && x.2.older y.2) then some x else b
    | none => some x) none

/-- The warp that a scheduler picks next for the instruction set of a warp's next instruction (R388). -/
def State.slotHolder (s : State) (c : Ctx) : Option Rdy :=
  let p := schedule (s.readyOf c.g.core (c.w.slot % 2))
  if (s.fetch c.gr.asid c.w.pc).uniform then (if p.2.2 then none else p.2.1) else p.1

/-- The slot holder traps with cause 0x20, or is killed with a WATCHDOG record (R388). -/
def State.evictHolder (s : State) (x : Rdy) : State :=
  if !x.c.w.masked && x.c.gr.lrec.handlers.getD 0 0 != 0 then s.takeTrap x.idx 0x20 x.c.w.pc x.c.w.pc
  else s.kill x.idx 5 0 2 1

/-- Whether a warp that is to take a trap still waits for the entry: for a translation, for room in the L1, for a result (R116, R192). -/
def State.trapWaits (s : State) (i : Nat) : Bool :=
  match s.warps[i]? with
  | some w => w.status == .running && w.wait != .none
  | none => false

/-- WATCHDOG_EXPIRY (R388, R382): the workgroups with a pending request are terminated; else the warp that holds the slot of the warp
starved longest traps or is killed. -/
def execWatchdogExpiry (core : Nat) (s : State) : Out :=
  .next (
    let p := s.wdPeriod (coreDie core)
    if p = 0 ∨ (s.core core).wd < p then s
    else
      let done := fun (s : State) => s.modCore core fun c => { c with wd := 0 }
      let victims := s.pendingWgs core
      if !victims.isEmpty then done (victims.foldl (fun s i => s.terminate i 5 1 (s.liveWarps i)) s)
      else match starvedLongest (s.starvedOf core) with
        | none => done s
        | some (wi, _) =>
          let s1 := s.refresh (coreCl core)
          match s1.ctxAt wi with
          | none => done s
          | some c =>
            if !s1.isReady c then done s
            else match s1.slotHolder c with
              | none => done s
              | some x =>
                if x.idx = wi then done s
                else
                  let s2 := s1.evictHolder x
                  if s2.trapWaits x.idx then s2 else done s2)

end Sys2Proof.Machine
end

