-- ==== Sys2Proof/Machine/Stall.lean ====
section
/-! DEFINITION. The stall counters of the engines (R342), the stall table (R343, R344) and its spills (R345). -/

namespace Sys2Proof.Machine

open Sys2Proof

/-! ### Counters (R342) -/

/-- The value of a stall counter. -/
def Core.stallCount (c : Core) (engine cause : Nat) : Nat := (c.stall.getD engine []).getD cause 0

/-- One clk counted for the causes of a list of (engine, cause), modulo 2^64. -/
def Core.countStalls (c : Core) (xs : List (Nat × Nat)) : Core :=
  { c with stall := (List.range 6).map fun e => (List.range 7).map fun u =>
      (c.stallCount e u + (if xs.contains (e, u) then 1 else 0)) % 2 ^ 64 }

/-- A vector pipe's cause: BUSY where its pick issued, PORT where it lost one, else IDLE: a pick that was withheld, or that began a wait, has
given the pipe nothing (R342). -/
def pipeCause (p : Option LastPick) : Nat :=
  match p with
  | none => 1
  | some x => if x.lost.isSome then 5 else if x.done then 0 else 1

/-- The uniform pipe's cause. -/
def uniformCause (ps : List (Option LastPick)) : Nat :=
  let us := ps.filterMap fun p => match p with
    | some x => if x.pair then none else some x
    | none => none
  if us.any fun x => x.lost.isNone && x.done then 0 else if us.any fun x => x.lost.isSome then 5 else 1

/-- The engine that runs a command: 3 matrix engine, 4 braid, 5 copy engine. -/
def Cmd.engine : Cmd → Nat
  | .ascan .. | .cld .. | .cst .. => 4
  | .copy .. => 5
  | _ => 3

/-- The cause of the matrix engine, the braid or the copy engine: BUSY, IDLE, SNAP, SCORE or BACK. -/
def State.engineCause (s : State) (k engine : Nat) : Nat :=
  let mine := (List.range s.ops.length).filterMap fun i => match s.ops[i]? with
    | some o => match o.kind with
      | .cmd c => if o.core = k ∧ o.status.live ∧ c.engine = engine then some (i, o, c) else none
      | _ => none
    | none => none
  if mine.any fun x => x.2.1.status == .started then 0
  else match mine with
    | [] => 1
    | (i, o, c) :: _ =>
      if !s.snapAt o o.sc then 2
      else if (s.cmdsBefore o.wg i).any fun p => p.2.conflicts c (p.1.status == .started) (p.1.warp == o.warp) then 3
      else 4

/-- The counters of a core after one clk: one cause for each engine, and STARVE for a vector pipe with a starved warp (R342). -/
def State.countCore (s : State) (k : Nat) (c : Core) : Core :=
  let pick := fun n => c.lastPick.getD n none
  let starve := fun sch => s.warps.any fun w => w.status == .running && w.starved && w.slot % 2 == sch && (match s.wgs[w.wg]? with
    | some g => g.core == k && g.status == .running
    | none => false)
  c.countStalls ([(0, pipeCause (pick 0)), (1, pipeCause (pick 2)), (2, uniformCause [pick 1, pick 3])] ++
    ([3, 4, 5].map fun e => (e, s.engineCause k e)) ++ (([0, 1].filter starve).map fun sch => (sch, 6)))

/-! ### Spills (R345) -/

/-- The record of an entry (R345). -/
def StallEntry.record (e : StallEntry) (cl : Nat) : List Word :=
  [BitVec.ofNat 32 e.pc, BitVec.ofNat 32 (e.pc / 2 ^ 32), BitVec.ofNat 32 e.blame,
    BitVec.ofNat 32 (e.multi.toNat * 2 ^ 26 + e.reason * 2 ^ 20 + e.blame / 2 ^ 32), BitVec.ofNat 32 e.count,
    BitVec.ofNat 32 (bitsOf (physId (12 * cl)) 0 8 * 2 ^ 16 + e.asid), 0, 0]

/-- A record is lost. -/
def State.loseRecord (s : State) (cl : Nat) : State := s.setReg (stLost cl) (satInc (s.reg (stLost cl)))

/-- A record whose bytes fail their check is lost; the first since the last write of STRP or STCTL is logged. -/
def State.failRecord (s : State) (cl asid va cause : Nat) : State :=
  let s := s.loseRecord cl
  if (s.cluster cl).stFail then s else (s.logTrace cl asid va cause 2).modCluster cl fun c => { c with stFail := true }

/-- The record of a spilled entry is written, or lost and counted; it waits while its page waits for a frame, and for the answers of another
package. -/
def State.spillEntry (s : State) (cl : Nat) (e : StallEntry) : DevWrite :=
  let b := s.circBuf (stBaseLo cl) (stBaseHi cl) (stSize cl) (stWp cl) (stRp cl)
  let asid := bitsOf (s.reg (stCtl cl)) 16 13
  if b.room < 64 then .done (s.loseRecord cl)
  else
    let bytes := (e.record cl).flatMap fun w => leBytes 4 w.toNat
    let vas := b.addrs 32
    match s.badStore asid vas (cl / 16) with
    | some (va, .miss) => .wait (s.wantFrame asid va)
    | some (va, .fail cause) => .done (s.failRecord cl asid va cause)
    | _ => match s.devWrite (.stall cl) asid (b.spans bytes) with
      | .done s => .done (s.setReg (stWp cl) (BitVec.ofNat 32 ((b.wp + 32) % b.size)))
      | .lost s => .done (s.failRecord cl asid (vas.headD 0) 0x10)
      | .wait s => .wait s

/-- The records of a list of spilled entries, the oldest first, until one waits. -/
def State.spillList (cl : Nat) : List StallEntry → State → State
  | [], s => s
  | e :: es, s => match s.spillEntry cl e with
    | .done t | .lost t => spillList cl es (t.modCluster cl fun c => { c with spillQ := c.spillQ.drop 1 })
    | .wait t => t

/-- The records that wait are written as far as they can be. -/
def State.spillFlush (s : State) (cl : Nat) : State := s.spillList cl (s.cluster cl).spillQ

/-- Entries spill, behind those whose records still wait. -/
def State.spill (s : State) (cl : Nat) (es : List StallEntry) : State :=
  (s.modCluster cl fun c => { c with spillQ := c.spillQ ++ es }).spillFlush cl

/-- STALL_COUNT_OVERFLOW (R344): the entry at an index spills when its COUNT is at its maximum, and restarts at 0. Records of entries that have
spilled before are written first. -/
def execStallCountOverflow (cluster entry : Nat) (s : State) : Out :=
  .next (match (s.cluster cluster).stalls[entry]? with
    | none => s.spillFlush cluster
    | some e =>
      if e.count = 2 ^ 32 - 1 then
        (s.modCluster cluster fun c => { c with stalls := c.stalls.modify entry fun x => { x with count := 0 } }).spill cluster [e]
      else s.spillFlush cluster)

/-! ### Samples (R343, R344) -/

/-- One sample. -/
structure Sample where
  asid : Nat
  pc : Nat
  reason : Nat
  blame : Nat
  deriving DecidableEq, Repr

/-- The set of a sample (R344). -/
def Sample.set (x : Sample) : Nat :=
  (x.pc / 2 ^ 2 % 2048) ^^^ (x.pc / 2 ^ 13 % 2048) ^^^ (x.pc / 2 ^ 24 % 2048) ^^^ (x.pc / 2 ^ 35 % 2048) ^^^ (x.pc / 2 ^ 46 % 64)
    ^^^ (x.reason * 32 % 2048) ^^^ (x.asid % 2048)

/-- The PC of the oldest member of a set that has not performed at a scope. -/
def State.oldestPc (s : State) (d : Nat) (ms : List Member) (sc : Scope) : Nat :=
  let ids := (ms.filter fun m => m.chip.isNone && !s.memberAt d m sc).map Member.op
  match ids with
  | [] => 0
  | i :: is => ((s.ops[is.foldl min i]?).map fun o => o.pc.toNat).getD 0

/-- The reason and the blame of a warp that did not issue in this clk (R343). -/
def State.stallReason (s : State) (i : Nat) (c : Ctx) (picks : List (Option LastPick)) : Nat × Nat :=
  let d := coreDie c.g.core
  let sch := c.w.slot % 2
  match c.w.wait with
  | .fetch => (0x01, 0)
  | .slot n => (0x03, ((s.ops[n]?).map fun o => o.pc.toNat).getD 0)
  | .score => (0x02, (((s.fetch c.gr.asid c.w.pc).instr?.bind fun j => s.heldBy i j).map fun o => o.pc.toNat).getD 0)
  | .kwait k sc _ => (0x04, s.oldestPc d (c.w.keySet k) sc)
  | .kall sc => (0x04, s.oldestPc d c.w.allSets sc)
  | .tfence => (0x04, ((s.ops.find? fun o => o.warp == i && o.flagsLater).map fun o => o.pc.toNat).getD 0)
  | .bwait _ _ => (0x05, 0)
  | .ringAcq _ _ => (0x06, 0)
  | .grow => (0x07, 0)
  | .krecv => (0x08, 0)
  | .queueFull | .spliceStore | .launch | .closedKey _ | .keyLimit _ _ | .counter => (0x09, 0)
  | .none | .probe _ _ | .room _ _ | .trace =>
    match picks.findSome? fun p => p.bind fun q => if q.warp = i then q.lost else none with
    | some pc => (0x0A, pc.toNat)
    | none =>
      if !c.w.yielded.isEmpty then (0x0C, 0)
      else
        let slot := 2 * sch + (if (s.fetch c.gr.asid c.w.pc).uniform then 1 else 0)
        (0x0B, ((picks.getD slot none).map fun p => p.pc.toNat).getD 0)

/-- The warps that a scheduler samples in turn: those of running workgroups that are not stopped, by slot. -/
def State.sampled (s : State) (k sch : Nat) : List (Nat × Ctx) :=
  (List.range 48).filterMap fun slot =>
    if slot % 2 ≠ sch then none
    else (List.range s.warps.length).findSome? fun i => match s.ctxAt i with
      | some c => if c.g.core = k ∧ c.g.status = .running ∧ c.w.slot = slot ∧ !s.stopped c.w.wg c.g then some (i, c) else none
      | none => none

/-- The warp whose turn it is. -/
def State.turn (s : State) (k sch : Nat) : Option (Nat × Ctx) :=
  let ws := s.sampled k sch
  let from_ := (s.core k).nextSample.getD sch 0
  match ws.find? fun x => decide (from_ ≤ x.2.w.slot) with
  | some x => some x
  | none => ws.head?

/-- A sample taken into the table: a matching entry counts it, and spills at its maximum; else it takes a free way of its set, or the least
recently updated one once that has spilled. -/
def State.takeSample (s : State) (cl : Nat) (x : Sample) : State :=
  let es := (s.cluster cl).stalls
  let same := fun (e : StallEntry) => e.asid == x.asid && e.pc == x.pc && e.reason == x.reason
  let s := { s with stamp := s.stamp + 1 }
  let add := fun (e : StallEntry) => { e with count := e.count + 1, multi := e.multi || e.blame != x.blame, used := s.stamp }
  let new : StallEntry := { set := x.set, asid := x.asid, pc := x.pc, reason := x.reason, blame := x.blame, count := 1, used := s.stamp }
  match es.find? same with
  | some e =>
    let e' := add e
    let full := decide (2 ^ 32 - 1 ≤ e'.count)
    let put := fun (y : StallEntry) => if same y then (if full then { e' with count := 0 } else e') else y
    let s := s.modCluster cl fun c => { c with stalls := c.stalls.map put }
    if full then s.spill cl [e'] else s
  | none =>
    match es.filter fun e => e.set == x.set with
    | w :: w1 :: w2 :: w3 :: ws =>
      let old := (w1 :: w2 :: w3 :: ws).foldl (fun (b : StallEntry) e => if e.used < b.used then e else b) w
      (s.modCluster cl fun c => { c with stalls := (c.stalls.filter fun e => e != old) ++ [new] }).spill cl [old]
    | _ => s.modCluster cl fun c => { c with stalls := c.stalls ++ [new] }

/-- The sample of one scheduler, and the turn that moves on; a warp that issued gives none (R343). -/
def State.sampleOne (cl : Nat) (s : State) (t : Nat × Nat) : State :=
  let (k, sch) := t
  match s.turn k sch with
  | none => s
  | some (i, c) =>
    let picks := (s.core k).lastPick
    let s := s.modCore k fun x => { x with nextSample := x.nextSample.set sch (c.w.slot + 1) }
    if picks.any fun p => match p with
      | some q => q.warp == i && q.done
      | none => false then s
    else
      let (r, b) := s.stallReason i c picks
      s.takeSample cl { asid := c.gr.asid, pc := c.w.pc.toNat, reason := r, blame := b }

/-- The end of a core clk of a cluster (R342 to R344): every engine of its cores counts its cause, and with the table enabled each scheduler
samples one warp, cores ascending, scheduler 0 first. Records that wait are written where they can be. -/
def State.endClk (s : State) (cl : Nat) : State :=
  if (s.cluster cl).counted then s
  else
    let cores := s.cores.mapIdx fun k c => if coreCl k == cl && s.corePresent k then s.countCore k c else c
    let s1 := { s with cores := cores }.modCluster cl fun c => { c with counted := true }
    let s2 := if (s.reg (stCtl cl)).getLsbD 31 then ((List.range 24).map fun n => (12 * cl + n / 2, n % 2)).foldl (State.sampleOne cl) s1 else s1
    s2.spillFlush cl

/-- The clk of a cluster ends once its last pick has issued. -/
def State.settleClk (s : State) : State :=
  if !s.picked.isEmpty then s
  else match s.clusters.findIdx? fun c => !c.counted with
    | some cl => s.endClk cl
    | none => s

/-- STALL_SAMPLE (R342, R343, R344): the step at the end of every core clk; a clk that has been counted and sampled is so no second time. -/
def execStallSample (cluster : Nat) (s : State) : Out := .next (s.endClk cluster)

/-- A write of STCTL (R343 to R345): bit 0 spills every entry. -/
def State.writeStctl (s : State) (cl : Nat) (v : Word) : State :=
  let s := (s.setReg (stCtl cl) (v &&& 0x9FFF0000)).modCluster cl fun c => { c with stFail := false }
  if v.getLsbD 0 then (s.modCluster cl fun c => { c with stalls := [] }).spill cl (s.cluster cl).stalls else s

/-- A write of STRP (R345). -/
def State.writeStrp (s : State) (cl : Nat) (v : Word) : State := (s.setReg (stRp cl) v).modCluster cl fun c => { c with stFail := false }

end Sys2Proof.Machine
end

