-- ==== Sys2Proof/Machine/Debug.lean ====
section
/-! DEFINITION. Breakpoints, stops, the dump, resuming and stepping (R346 to R350). -/

namespace Sys2Proof.Machine

open Sys2Proof

/-- The management space answers: READY is set, and the unit is present (R351, R353). -/
def State.clusterUp (s : State) (cl : Nat) : Bool := s.up && s.clusterPresent cl

/-- DBGSTAT.MISSED set (R347). -/
def State.setMissed (s : State) (cl : Nat) : State := s.setReg (dbgStat cl) (setBits (s.reg (dbgStat cl)) 29 1 1)

/-- The live warps of a workgroup that have not issued in the step, by %warp (R348, R349). -/
def State.notStepped (s : State) (wi : Nat) : List Nat :=
  (s.warps.filter fun w => w.wg == wi && w.status == .running && w.handler.isNone && !w.issued).map Warp.num

/-- BREAKPOINT_HIT (R346, R347): the picked warp's issue is withheld and its workgroup stops; while the cluster holds another stopped
workgroup only MISSED is set. -/
def execBreakpointHit (warp : Nat) (bp : Fin 4) (s : State) : Out :=
  .next (match s.ctxAt warp with
    | none => s
    | some c =>
      let cl := coreCl c.g.core
      if !s.picked.contains warp ∨ s.bpAt c ≠ some bp.val then s
      else if s.takesHit c then
        let x := s.cluster cl
        let hits := if x.dbg = .stopping then c.w.num :: x.bpHit else [c.w.num]
        let skipped := if x.dbg = .stepping then s.notStepped c.w.wg else if x.dbg = .stopping then x.noStep else []
        let s := s.modCluster cl fun x => { x with dbg := .stopping, dbgWg := c.w.wg, dbgCause := 2, bpHit := hits, noStep := skipped }
        let s := s.modWarp warp fun w => { w with stalledAt := some c.w.pc }
        { s with picked := s.picked.filter fun i => i != warp }
      else s.setMissed cl)

/-! ### Writes of a span by the device -/

/-- The pieces of a span that lie in one 64 KiB page each: address and length. -/
def pagePieces (va n : Nat) : List (Nat × Nat) :=
  if n = 0 then []
  else (List.range ((va + n - 1) / 2 ^ 16 - va / 2 ^ 16 + 1)).map fun i =>
    let a := if i = 0 then va else (va / 2 ^ 16 + i) * 2 ^ 16
    (a, min (va + n) ((a / 2 ^ 16 + 1) * 2 ^ 16) - a)

/-- One piece written: b holds the bytes of the whole span from its first address `base`, psn its poisoned words. A piece in another package
goes out as requests of a cluster's dump. -/
def State.devicePiece (s : State) (cl asid base : Nat) (b : Bytes) (psn : List Nat) (p : Nat × Nat) : State :=
  let part := Memory.slice b (p.1 - base) p.2
  match s.place asid p.1 with
  | .foreign _ _ _ =>
    s.devAsk (.dump cl) asid p.1 p.2 (some ((List.range p.2).map fun i => BitVec.ofNat 8 (Memory.getN part i 1))) fun a =>
      psn.contains ((max a base - base) / 4)
  | .here k a v =>
    let marks := (psn.filter fun w => decide (p.1 - base ≤ 4 * w) && decide (4 * w < p.1 - base + p.2)).map fun w => (k + (4 * w - (p.1 - base))) / 4
    let s := s.sliceDirty k p.2 (2 ^ p.2 - 1)
    let s := { s with mem := Memory.paste s.mem k p.2 part
                      memPsn := marks.foldl Marks.add (s.memPsn.filter fun w => !(decide (k ≤ 4 * w) && decide (4 * w + 4 ≤ k + p.2))) }
    s.dropSpan a v p.2
  | _ => s

/-- Whether some page of a span waits for a frame, or a link on the way to it retrains. -/
def State.spanWaits (s : State) (cl asid va n : Nat) (write : Bool) : Bool :=
  (pagePieces va n).any fun p => s.walkCheck asid p.1 write false (cl / 16) == .miss

/-- The pages of a span that wait for a frame are wanted (R115). -/
def State.wantSpan (s : State) (asid va n : Nat) : State := (pagePieces va n).foldl (fun s p => s.wantFrame asid p.1) s

/-- A span written at sys scope; pieces whose access check fails are left out (notes/assumptions/19.md). -/
def State.deviceSpan (s : State) (cl asid va n : Nat) (b : Bytes) (psn : List Nat) : State :=
  (pagePieces va n).foldl (fun s p => match s.walkCheck asid p.1 true false (cl / 16) with
    | .ok _ => s.devicePiece cl asid va b psn p
    | _ => s) s

/-! ### The dump (R348) -/

/-- DUMPBASE of a cluster. -/
def State.dumpBase (s : State) (cl : Nat) : Nat := bitsOf (s.reg (dumpBaseHi cl)) 0 20 * 2 ^ 32 + (s.reg (dumpBaseLo cl)).toNat

/-- A set of %warp numbers as a 64-bit mask's two words at an offset. -/
def maskWords (off : Nat) (ws : List Nat) : List ImgWord :=
  let m := ((ws.filter fun w => decide (w < 64)).eraseDups.map fun w => 2 ^ w).sum
  [img off (BitVec.ofNat 32 m), img (off + 4) (BitVec.ofNat 32 (m / 2 ^ 32))]

/-- The 256-byte debug header. -/
def dumpHeader (c : Cluster) (g : Workgroup) (asid : Nat) : List ImgWord :=
  [img 0 (BitVec.ofNat 32 g.seq), img 4 (BitVec.ofNat 32 (asid * 2 ^ 16 + g.die * 2 ^ 8 + g.cl * 2 ^ 4 + g.wg)),
      img 8 (BitVec.ofNat 32 c.dbgCause)]
    ++ maskWords 0x10 c.bpHit ++ maskWords 0x18 c.noStep
    ++ (g.bars.zipIdx.flatMap fun p =>
      let o := 0x40 + 8 * p.2
      let m := ((p.1.byWarp.filter fun w => decide (w < 48)).eraseDups.map fun w => 2 ^ w).sum
      [img o (BitVec.ofNat 32 m), img (o + 4) (BitVec.ofNat 32 (m / 2 ^ 32 + p.1.others % 256 * 2 ^ 16))])

/-- An image as bytes and marks. -/
def imageBytes (blocks : List (Nat × Nat × Bytes × List Nat)) (ws : List ImgWord) : Bytes × List Nat :=
  let m := blocks.foldl (fun m b => Memory.paste m b.1 b.2.1 b.2.2.1) []
  let p := blocks.foldl (fun p b => (b.2.2.2.map fun k => b.1 / 4 + k).foldl Marks.add p) []
  (ws.foldl (fun m w => Memory.setN m w.1 4 w.2.1.toNat) m, ws.foldl (fun p w => if w.2.2 then Marks.add p (w.1 / 4) else p) p)

/-- The dump of a stopped workgroup: its length, bytes and marks. -/
def State.dump (s : State) (cl wi : Nat) (g : Workgroup) (gr : Grid) : Nat × Bytes × List Nat :=
  let image := (s.imageWords wi g gr.lrec s.stamp).map fun w => (256 + w.1, w.2)
  let blocks := (g.blocks gr.lrec).map fun b => (256 + b.1, b.2)
  let last := g.warpBase gr.lrec + ((s.ordinary wi).map fun p => warpRecord p.2).sum
  let (b, p) := imageBytes blocks (dumpHeader (s.cluster cl) g gr.asid ++ image)
  (256 + last, b, p)

/-- The requests of a cluster's dump to other packages. -/
def State.dumpReqs (s : State) (cl : Nat) : List DevReq := s.devReqs.filter fun r => r.use == .dump cl

/-- The stop of a workgroup is complete: its STOP packet enters the FIFO, when tracing is enabled (R348); it waits while the FIFO is full. -/
def State.endStop (s : State) (cl : Nat) (g : Workgroup) : State :=
  let c := s.cluster cl
  let stop : Packet := .stop (traceWid g.core (Config.stopSlot s.stamp % 64)) c.dbgCause (g.bar 0).phase c.clk
  match if (s.reg (trCtl cl)).getLsbD 31 then s.enterPacket cl stop else some s with
  | none => s
  | some t =>
    let reqs := t.devReqs.map fun r => if r.use == .dump cl then { r with use := .spent } else r
    { t with stamp := s.stamp + 1, devReqs := reqs }.modCluster cl fun c => { c with dbg := .stopped }

/-- STOP_DUMP (R337, R348): once the workgroup's engine commands are complete its dump is written and then the STOP packet entered; while a page
of the dump waits for a frame nothing is written, and what goes to another package has to be answered first. -/
def execStopDump (cluster : Nat) (s : State) : Out :=
  .next (
    let c := s.cluster cluster
    match s.wgs[c.dbgWg]? with
    | none => s
    | some g => match s.grids[g.grid]? with
      | none => s
      | some gr =>
        let base := s.dumpBase cluster
        let (n, b, p) := s.dump cluster c.dbgWg g gr
        let out := s.dumpReqs cluster
        if c.dbg ≠ .stopping || s.cmdsLive c.dbgWg then s
        else if !out.isEmpty then (if out.all DevReq.done then s.endStop cluster g else s)
        else if s.spanWaits cluster gr.asid base n true then s.wantSpan gr.asid base n
        else
          let t := s.deviceSpan cluster gr.asid base n b p
          if (t.dumpReqs cluster).isEmpty then t.endStop cluster g else t)

/-! ### Commands (R347, R349) -/

/-- The workgroup on a cluster with the placement sequence number in DBGSEQ. -/
def State.namedWg (s : State) (cl : Nat) : Option Nat :=
  s.wgs.findIdx? fun g => g.onCore && coreCl g.core == cl && g.seq == (s.reg (dbgSeq cl)).toNat

/-- DBGCMD STOP (R347). -/
def execDbgcmdStop (cluster : Nat) (s : State) : Out :=
  .next (match if s.clusterUp cluster then s.namedWg cluster else none with
    | none => s
    | some wi =>
      let c := s.cluster cluster
      if c.dbg = .none ∨ (c.dbg = .stepping ∧ c.dbgWg = wi) then
        let skipped := if c.dbg = .stepping then s.notStepped wi else []
        s.modCluster cluster fun c => { c with dbg := .stopping, dbgWg := wi, dbgCause := 1, bpHit := [], noStep := skipped }
      else s)

/-- The stopped workgroup goes on: the warps that hit pass their breakpoint once. -/
def State.resume (s : State) (cl : Nat) (next : DbgState) : State :=
  let c := s.cluster cl
  let go := fun (w : Warp) => if w.wg = c.dbgWg then { w with issued := false, passBp := w.stalledAt.isSome } else w
  { s with warps := s.warps.map go }.modCluster cl fun c => { c with dbg := next, stepClk := 0 }

/-- Whether a command reaches a stopped workgroup: DBGSEQ names the one that the cluster holds; else the command is ignored (R349). -/
def State.namesStopped (s : State) (cl : Nat) : Bool :=
  s.clusterUp cl && (s.cluster cl).dbg == .stopped && s.namedWg cl == some (s.cluster cl).dbgWg

/-- DBGCMD RESUME (R349). -/
def execDbgcmdResume (cluster : Nat) (s : State) : Out := .next (if s.namesStopped cluster then s.resume cluster .none else s)

/-- The fields of R84 taken from a warp record in memory. -/
def Warp.reload (w : Warp) (rd : Nat → Word) (bad : Nat → Bool) (o : Nat) : Warp :=
  { w with
    fmt := fmtOf (rd (o + 0x14)), aflags := swrAflags (rd (o + 0x18))
    s := (List.range 64).map fun i => rd (o + 0x40 + 4 * i)
    sPsn := BitVec.ofNat 64 (maskOf ((List.range 64).map fun i => bad (o + 0x40 + 4 * i)))
    p := (List.range 7).map fun i => rd (o + 0x140 + 4 * i)
    v := (List.range (8 * w.allot)).map fun n =>
      { val := lanes.map fun l => rd (o + 0x820 + 128 * n + 4 * l), psn := laneMask fun l => bad (o + 0x820 + 128 * n + 4 * l) } }

/-- The answered request that holds the byte at an address of a dump. -/
def State.dumpReply (s : State) (asid a : Nat) : Option DevReq :=
  s.devReqs.find? fun r => r.asid == asid && decide (r.addr ≤ a) && decide (a < r.addr + r.size) && (match r.use with
    | .read _ => true
    | _ => false)

/-- The word at an address of a dump, with its mark: at home, or from another package's answer. -/
def State.dumpWord (s : State) (asid a : Nat) : Word × Bool :=
  match s.dumpReply asid a with
  | some r => (BitVec.ofNat 32 (bytesNat ((r.bytes.drop (a - r.addr)).take 4)), r.byteBad a)
  | none => (BitVec.ofNat 32 (s.homeRead asid a 4), s.homePsn asid a 4 != 0)

/-- The records of a dump reloaded: each live warp's fields; a word on a page whose access check fails keeps what it was, so the whole
record is left as it is. -/
def State.reloadDump (s : State) (cl wi : Nat) (g : Workgroup) (gr : Grid) (failed : Nat → Nat → Bool) : State :=
  let base := s.dumpBase cl + 256
  (s.recordOffsets wi g gr.lrec).foldl (fun (t : State) p =>
    if p.2.2.status = .running ∧ !failed (base + p.1) (warpRecord p.2.2) then
      t.modWarp p.2.1 fun w => w.reload (fun o => (s.dumpWord gr.asid (base + o)).1) (fun o => (s.dumpWord gr.asid (base + o)).2) p.1
    else t) s

/-- DBGCMD RESUME with load (R84, R349): it waits while a page of the dump waits for a frame, and for the answers of another package. -/
def execDbgcmdResumeLoad (cluster : Nat) (s : State) : Out :=
  .next (
    let c := s.cluster cluster
    if !s.namesStopped cluster then s
    else match s.wgs[c.dbgWg]? with
      | none => s
      | some g => match s.grids[g.grid]? with
        | none => s
        | some gr =>
          let n := 256 + g.warpBase gr.lrec + ((s.ordinary c.dbgWg).map fun p => warpRecord p.2).sum
          let ps := pagePieces (s.dumpBase cluster) n
          let rd := fun (p : Nat × Nat) => s.devRead gr.asid p.1 p.2 (cluster / 16)
          if ps.any fun p => rd p == .wait || rd p == .ask then
            ps.foldl (fun t p => if rd p == .wait || rd p == .ask then t.devReadOn gr.asid p.1 p.2 (cluster / 16) else t) s
          else
            let failed := fun a m => ps.any fun p => rd p == .fail && decide (a < p.1 + p.2) && decide (p.1 < a + m)
            let t := s.reloadDump cluster c.dbgWg g gr failed
            (ps.foldl (fun t p => t.devClose (.read p.2) gr.asid p.1) t).resume cluster .none)

/-- DBGCMD STEP (R349). -/
def execDbgcmdStep (cluster : Nat) (s : State) : Out :=
  .next (if s.namesStopped cluster then s.resume cluster .stepping else s)

/-- STEP_END (R349): every warp has issued once, or 4,096 clk have passed. -/
def execStepEnd (cluster : Nat) (s : State) : Out :=
  .next (
    let c := s.cluster cluster
    let left := s.warps.any fun w => w.wg == c.dbgWg && w.status == .running && !w.issued
    let ended := ((s.wgs[c.dbgWg]?).map Workgroup.hasEnded).getD true
    if c.dbg ≠ .stepping then s
    else if ended then s.modCluster cluster fun c => { c with dbg := .none }
    else if left && decide (c.stepClk < 4096) then s
    else s.modCluster cluster fun x => { x with dbg := .stopping, dbgCause := 3, bpHit := [], noStep := s.notStepped c.dbgWg })

end Sys2Proof.Machine
end

