-- ==== Sys2Proof/Machine/Links.lean ====
section
/-! DEFINITION. In-package links (R416 to R418), fibre groups (R316 to R318, R419), crossbar tokens (R422), frequency switches
(R417), link maintenance (R315), the centre-link measurement (R334). -/

namespace Sys2Proof.Machine

open Sys2Proof

/-- Whether at least n of 1/16 ns have passed since t, within the 1 % of a timer. -/
def State.after (s : State) (t n : Nat) : Bool := decide (99 * n ≤ 100 * (s.now - t))

def ms : Nat := 16000000

/-! ### In-package links -/

/-- The other port of the wire of port 3 d + p: port A of a die meets port B of the next one (R14, R21); a centre link has none. -/
def mate (l : Nat) : Option Nat :=
  let d := l / 3
  match l % 3 with
  | 1 => some (3 * ((d + 1) % 4) + 2)
  | 2 => some (3 * ((d + 3) % 4) + 1)
  | _ => none

/-- Both ports of a link. -/
def ports (l : Nat) : List Nat := l :: (mate l).toList

/-- LINK of an in-package port (R415). -/
def linkCode (l : Nat) : Nat := 16 + 4 * (l / 3) + l % 3

/-- The working lanes of a link. -/
def DieLink.working (x : DieLink) : Nat := ((List.range 64).filter fun j => x.lanes.getLsbD j).length

/-- The width of n working lanes: the largest of 64, 32, 16, 8 (R416). -/
def laneWidth (n : Nat) : Nat := if 64 ≤ n then 64 else if 32 ≤ n then 32 else if 16 ≤ n then 16 else if 8 ≤ n then 8 else 0

def State.link (s : State) (l : Nat) : DieLink := s.links.getD l DieLink.mk0

/-- Both ports of a link changed. -/
def State.modLink (s : State) (l : Nat) (f : DieLink → DieLink) : State :=
  { s with links := (ports l).foldl (fun ls p => ls.modify p f) s.links }

/-- A die whose three links have all failed is isolated (R418). -/
def State.isolate (s : State) : State :=
  (List.range 4).foldl (fun s d =>
    if (List.range 3).all fun p => (s.link (3 * d + p)).failed then s.modDie d fun x => { x with isolated := true } else s) s

/-- A link fails (R416, R417). -/
def State.failLink (s : State) (l sub : Nat) : State :=
  let s := (s.modLink l fun x => { x with failed := true, training := false }).logLink 4 sub (linkCode l) (Config.unacked s.outbox.length) 0
  s.isolate

/-- A lane lost at both ports: side links are lane-mirrored (R21). -/
def State.dropLane (s : State) (l lane : Nat) : State :=
  let off := fun (j : Nat) (x : DieLink) => { x with lanes := x.lanes &&& ~~~(BitVec.ofNat 64 (2 ^ j)) }
  let ls := s.links.modify l (off lane)
  { s with links := match mate l with
      | some m => ls.modify m (off (63 - lane))
      | none => ls }

/-- A retraining that a further lane loss restarts: one restart more for every request that waits at an end of the link (R417). -/
def State.countRestart (s : State) (l : Nat) : State :=
  (ports l).foldl (fun s p => s.modDie (p / 3) fun d =>
    if d.freqWant.isSome then { d with restarts := d.restarts.modify (p % 3) (· + 1) } else d) s

/-- Whether a request at an end of a link has seen its third restart. -/
def State.unstable (s : State) (l : Nat) : Bool :=
  (ports l).any fun p => (s.die (p / 3)).freqWant.isSome && decide (3 ≤ (s.die (p / 3)).restarts.getD (p % 3) 0)

/-- LANE_FAILURE (R416, R417): the link retrains; below 8 working lanes it fails; the third restart for one frequency request fails it. -/
def execLaneFailure (link : Fin 12) (lane : Fin 64) (s : State) : Out :=
  .next (
    let x := s.link link
    if x.failed || !x.lanes.getLsbD lane then s
    else
      let s := s.dropLane link lane
      let n := laneWidth (s.link link).working
      let s := s.logLink 1 0 (linkCode link) (BitVec.ofNat 32 lane) (BitVec.ofNat 32 n)
      let s := if x.training then s.countRestart link else s
      let s := s.modLink link fun x => { x with training := true }
      if n = 0 then s.failLink link 2
      else if s.unstable link then s.failLink link 3
      else s)

/-- LINK_RETRAIN_DONE (R416). -/
def execLinkRetrainDone (link : Fin 12) (s : State) : Out :=
  .next (
    let x := s.link link
    if !x.training then s
    else
      let n := laneWidth x.working
      (s.modLink link fun x => { x with training := false, width := n }).logLink 3 1 (linkCode link) (BitVec.ofNat 32 x.width) (BitVec.ofNat 32 n))

/-- PWRSTAT.FCUR and THROT of the dies as they run (R361). -/
def State.fmax (s : State) (d : Nat) : Nat := min 4 (bitsOf (s.reg 0x0030) (3 * d) 3)

/-- FREQUENCY_SWITCH (R417): once no link of the die retrains the step changes. -/
def execFrequencySwitch (die : Fin 4) (s : State) : Out :=
  .next (match (s.die die).freqWant with
    | none => s
    | some c =>
      if (List.range 3).any fun p => (s.link (3 * die + p)).training then s
      else
        s.modDie die fun d => { d with step := c, freqWant := none, restarts := [0, 0, 0] })

/-- CENTRE_LINK_MEASURE (R334, R418, R423): a new round trip, unless the centre link retrains or the die has no link left. -/
def execCentreLinkMeasure (die : Fin 4) (counts : Nat) (s : State) : Out :=
  .next (if (s.link (3 * die)).training || (s.die die).isolated then s else s.modDie die fun d => { d with rt := counts })

/-! ### Fibre groups -/

def State.nLambda (s : State) : Nat := bitsOf s.capsLink 16 8

/-- Whether group g exists on this part (R316). -/
def State.hasGroup (s : State) (g : Nat) : Bool :=
  decide (g < 16) && decide (4 * g + 3 < bitsOf s.capsLink 0 8) && decide (4 * g + 3 < bitsOf s.capsLink 8 8)

/-- WANTL and WANTF of a control word as they act (R317). -/
def State.wantL (s : State) (ctl : Word) : Nat :=
  let w := bitsOf ctl 8 8
  if w = 0 ∨ s.nLambda < w then s.nLambda else w
def wantF (ctl : Word) : Nat :=
  let w := bitsOf ctl 0 3
  if w = 0 ∨ 4 < w then 4 else w

/-- What a group has lost. -/
def State.groupLoss (s : State) (g : Nat) : GroupLoss := (s.optics.find? fun x => x.group == g).getD { group := g }

/-- The operating fibres of a direction (0 transmit, 1 receive): the lowest-numbered working ones. -/
def State.opFibres (s : State) (g dir : Nat) : List Nat :=
  (((List.range 4).map fun i => 4 * dir + i).filter fun f => !(s.groupLoss g).fibres.contains f).take (wantF (s.reg (lgCtl g)))

/-- Operating wavelengths: those that work on every operating fibre, at most the number requested (R419). -/
def State.opLambda (s : State) (g : Nat) : Nat :=
  let fs := s.opFibres g 0 ++ s.opFibres g 1
  let lost := (s.groupLoss g).lambdas
  min (s.wantL (s.reg (lgCtl g))) (((List.range s.nLambda).filter fun x => !(fs.any fun f => lost.contains (f, x))).length)

/-- Whether a group is too narrow to run (R419). -/
def State.tooNarrow (s : State) (g : Nat) : Bool :=
  (s.opFibres g 0).isEmpty || (s.opFibres g 1).isEmpty || decide (s.opLambda g < min 16 (s.wantL (s.reg (lgCtl g))))

/-- LGSTAT of a group with a STATE and its operating widths (R318). -/
def State.groupWord (s : State) (g st : Nat) : Word :=
  let ctl := s.reg (lgCtl g)
  BitVec.ofNat 32 (st * 2 ^ 30 + bitsOf ctl 30 1 * 2 ^ 29 + bitsOf (s.reg (lgStat g)) 28 1 * 2 ^ 28 + s.opLambda g * 2 ^ 16 +
    (s.opFibres g 1).length * 2 ^ 8 + (s.opFibres g 0).length)

/-- A group's training ends. -/
def State.untrain (s : State) (g : Nat) : State := { s with groupUp := s.groupUp.filter fun t => t.group != g }

/-- The flits sent on a group that its peer has not acknowledged (R415). -/
def State.unacked (s : State) (g : Nat) : Nat := ((s.outbox.filter fun m => m.group == g && !m.lost).map OutMsg.left).sum

/-- What a group held in flight is lost when it goes out of service (R421). -/
def State.loseFlits (s : State) (g : Nat) : State :=
  { s with outbox := s.outbox.map (fun m => if m.group == g && m.left != 0 then { m with left := 0, lost := true } else m)
           flitIn := s.flitIn.filter fun f => f.group != g }

/-- A group fails (R419): a LINKFAIL record with the flits unacknowledged, and these are lost (R415, R421). -/
def State.failGroup (s : State) (g sub : Nat) : State :=
  (((s.untrain g).setReg (lgStat g) (BitVec.ofNat 32 (3 * 2 ^ 30 + bitsOf (s.reg (lgCtl g)) 30 1 * 2 ^ 29))).logLink 4 sub g
    (BitVec.ofNat 32 (s.unacked g)) 0).loseFlits g

/-- A group in service retrains (R315, R419): 1 loss, 2 CRC, 3 requested width change. -/
def State.retrainGroup (s : State) (g sub : Nat) : State :=
  if s.groupState g ≠ 2 then s
  else
    let t : GroupTrain := { group := g, since := s.now, sub := sub, before := s.reg (lgStat g) }
    { s.untrain g with groupUp := t :: (s.untrain g).groupUp }.setReg (lgStat g) (s.groupWord g 1)

/-- A group is enabled: it trains anew (R317, R419). -/
def State.startGroup (s : State) (g : Nat) : State :=
  let t : GroupTrain := { group := g, since := s.now, sub := 0, before := 0 }
  let s := { s with optics := s.optics.filter fun x => x.group != g, crcFails := s.crcFails.filter fun x => x.1 != g
                    groupUp := t :: s.groupUp.filter fun x => x.group != g }
  (s.setReg (lgStat g) 0).setReg (lgStat g) ((s.setReg (lgStat g) 0).groupWord g 1)

/-- A group is disabled. -/
def State.stopGroup (s : State) (g : Nat) : State := ((s.untrain g).setReg (lgStat g) 0).loseFlits g

/-- A write of LGCTL (R316, R317). -/
def State.writeLgctl (s : State) (g : Nat) (v : Word) : State :=
  if !s.hasGroup g then s
  else
    let old := s.reg (lgCtl g)
    let en := v.getLsbD 31
    let was := old.getLsbD 31
    let proto := if bitsOf v 30 1 = 1 then (if s.capsLink.getLsbD 25 then 1 else bitsOf old 30 1)
      else if s.capsLink.getLsbD 24 then 0 else bitsOf old 30 1
    let high := if was && en then bitsOf old 28 3 else proto * 4 + bitsOf v 28 2
    let new : Word := BitVec.ofNat 32 (en.toNat * 2 ^ 31 + high * 2 ^ 28 + bitsOf v 8 8 * 2 ^ 8 + bitsOf v 0 3)
    let s1 := s.setReg (lgCtl g) new
    if !en then (if was then s1.stopGroup g else s1)
    else if !was then s1.startGroup g
    else if s.wantL old != s.wantL new || wantF old != wantF new then
      (if s1.groupState g = 2 ∧ s1.tooNarrow g then s1.failGroup g 2 else s1.retrainGroup g 3)
    else s1

/-- LGCTL_WRITE (R317). -/
def execLgctlWrite (g : Fin 16) (v : Word) (s : State) : Out := .next (if s.up then s.writeLgctl g v else s)

/-- LINK_TRAINING_DONE (R318, R419): the group is up; a retraining leaves a RETRAIN record. -/
def execLinkTrainingDone (group : Fin 16) (s : State) : Out :=
  .next (match s.groupUp.find? fun t => t.group == group.val with
    | none => s
    | some t =>
      if s.groupState group ≠ 1 then s
      else if s.tooNarrow group then s.failGroup group 2
      else
        let w := s.groupWord group 2
        let s := (s.untrain group).setReg (lgStat group) w
        if t.sub = 0 then s else s.logLink 3 t.sub group t.before w)

/-- GROUP_TRAINING_TIMEOUT (R419): longer than 100 ms. -/
def execGroupTrainingTimeout (group : Fin 16) (s : State) : Out :=
  .next (match s.groupUp.find? fun t => t.group == group.val with
    | none => s
    | some t => if s.groupState group = 1 ∧ t.since + 100 * ms < s.now then s.failGroup group 1 else s)

/-- FIBRE_GROUP_LOSS (R419): a fibre or one wavelength of a fibre is lost; the group narrows, or fails. -/
def execFibreGroupLoss (group : Fin 16) (fibre : Fin 8) (lambda : Option Nat) (s : State) : Out :=
  .next (
    let st := s.groupState group
    let old := s.groupLoss group
    let known := old.fibres.contains fibre.val || (match lambda with
      | some x => old.lambdas.contains (fibre.val, x) || decide (s.nLambda ≤ x)
      | none => false)
    if (st ≠ 1 ∧ st ≠ 2) ∨ known then s
    else
      let new : GroupLoss := match lambda with
        | some x => { old with lambdas := (fibre.val, x) :: old.lambdas }
        | none => { old with fibres := fibre.val :: old.fibres }
      let s1 := { s with optics := new :: s.optics.filter fun x => x.group != group.val }
      let bad := s1.tooNarrow group
      let s2 := if bad || st = 1 || s1.groupWord group 2 = s.reg (lgStat group) then s1 else s1.retrainGroup group 1
      let info : Word := BitVec.ofNat 32 (fibre * 256 + (match lambda with
        | some x => x % 256
        | none => 255))
      if bad then
        let after := (s1.failGroup group 2).reg (lgStat group)
        (s1.logLink 2 0 group info after).failGroup group 2
      else s2.logLink 2 0 group info (s2.reg (lgStat group)))

/-- TLOCK_LAPSE (R318): no time flit with the peer for 10 ms. -/
def execTlockLapse (group : Fin 16) (s : State) : Out :=
  .next (
    let last := ((s.lastFlit.find? fun x => x.1 == group.val).map Prod.snd).getD 0
    let w := s.reg (lgStat group)
    if w.getLsbD 28 ∧ last + 10 * ms ≤ s.now then s.setReg (lgStat group) (setBits w 28 1 0) else s)

/-- A time flit is exchanged with a group's peer (R318). -/
def State.timeFlit (s : State) (g : Nat) : State :=
  { s.setReg (lgStat g) (setBits (s.reg (lgStat g)) 28 1 1) with lastFlit := (g, s.now) :: s.lastFlit.filter fun x => x.1 != g }

/-- WAVELENGTH_RECALIBRATION (R315): at most once per 10 ms; it holds the group's traffic and changes nothing else. -/
def execWavelengthRecalibration (group : Fin 16) (s : State) : Out :=
  .next (match s.recal.find? fun x => x.1 == group.val with
    | some x => if s.groupState group = 2 ∧ x.2 + 10 * ms ≤ s.now then
        { s with recal := (group.val, s.now) :: s.recal.filter fun x => x.1 != group.val } else s
    | none => if s.groupState group = 2 then { s with recal := (group.val, s.now) :: s.recal } else s)

/-! ### Crossbar tokens (R422) -/

/-- Whether a die has a channel's owner: home slice n, or cluster n - 64 (R29, R415). -/
def Die.hasChannel (d : Die) (n : Nat) : Bool :=
  if n < 32 then d.sliceLo.getLsbD n else if n < 64 then d.sliceHi.getLsbD (n - 32) else decide (n < 80) && d.clmask.getLsbD (n - 64)

/-- TOKEN_REGENERATE (R422): a TOKEN record at each regeneration, which says lost or duplicate (notes/assumptions/57.md); 16 within 1 ms fail the
channel over. -/
def execTokenRegenerate (die : Fin 4) (channel : Nat) (s : State) : Out :=
  .next (
    let d := s.die die
    let c := (d.channels.find? fun c => c.num == channel).getD { num := channel }
    if !d.hasChannel channel || c.failedOver then s
    else
      let times := s.now :: c.times.filter fun t => decide (s.now < t + ms)
      let gone := decide (16 ≤ times.length)
      let new : TokenChannel := { num := channel, gen := c.gen + 1, times := times, failedOver := gone }
      let s := s.modDie die fun d => { d with channels := new :: d.channels.filter fun c => c.num != channel }
      let rec_ := fun (s : State) (sub : Nat) =>
        s.logLink 6 sub (0x40 + die) (BitVec.ofNat 32 channel) (BitVec.ofNat 32 times.length)
      let s := rec_ s (if Config.tokenTwice s.now then 2 else 1)
      if gone then rec_ s 3 else s)

end Sys2Proof.Machine
end

