-- ==== Sys2Proof/Machine/TimeBase.lean ====
section
/-! DEFINITION. The time base: TIMEBASE, its discipline by PTP, lock (R332, R333, R423), and the passing of time. -/

namespace Sys2Proof.Machine

open Sys2Proof

def tbCtl : Nat := 0x0070
def tbStat : Nat := 0x0074

/-- TBSTAT.MASTER and LOCK, TBCTL.SLAVEG (R333). -/
def State.master (s : State) : Bool := (s.reg tbStat).getLsbD 30
def State.locked (s : State) : Bool := (s.reg tbStat).getLsbD 31
def State.slaveGroup (s : State) : Nat := bitsOf (s.reg tbCtl) 16 4

def State.domain (s : State) : Nat := bitsOf (s.reg tbCtl) 0 7

/-- The sync interval in counts: 2^(-SYNCL) s (R333). -/
def State.syncLen (s : State) : Nat := 16000000000 / 2 ^ min 7 (bitsOf (s.reg tbCtl) 12 4)

/-- Whether a TIME reply in flight would be overdue were TIMEBASE to reach a count: it arrives before, so that its value lies within 16 counts of
TIMEBASE (R199, R423). -/
def State.timeDue (s : State) (tb : Nat) : Bool :=
  s.ops.any fun o => match o.kind, o.status, o.aux with
    | .time _, .issued, [t, h] => decide (t + h + 16 < tb)
    | _, _, _ => false

/-- Time passes: TIMEBASE counts what its oscillator and servo give, within 20 ppm free-running (R423) and 100 ppm more while it is
disciplined (R332); a hold takes the counts first. No more passes than a TIME reply in flight allows. -/
def State.elapse (s : State) (counts adv : Nat) : State :=
  let ppm := if (s.reg tbCtl).getLsbD 31 then 120 else 20
  let fits := decide (1000000 * (adv - counts) ≤ ppm * counts) && decide (1000000 * (counts - adv) ≤ ppm * counts)
  let adv := if fits then adv else counts
  let tb := s.tb + (adv - s.tbHold)
  if s.timeDue tb then s else { s with now := s.now + counts, tb := tb, tbHold := s.tbHold - adv }

/-- A TIMELOCK record (R415): OFFSET sign-extended, the slave port's group. -/
def State.logLock (s : State) (sub : Nat) : State :=
  s.logLink 7 sub 0xFF (word (sext 16 (bitsOf (s.reg tbStat) 0 16))) (BitVec.ofNat 32 s.slaveGroup)

/-- Lock is lost (R333, R423). -/
def State.loseLock (s : State) : State :=
  if s.locked && !s.master then
    ({ s.setReg tbStat (setBits (s.reg tbStat) 31 1 0) with tbOk := 0, tbLost := true }).logLock 1
  else { s with tbOk := 0 }

/-- A sync interval ends: one with an offset below 16 counts, and none above, counts; the sixteenth in a row gives lock, and one without breaks
the row (R333). -/
def State.countLock (s : State) : State :=
  let s := { s with tbOk := if s.ptp.good then s.tbOk + 1 else if s.locked then s.tbOk else 0, ptp := { s.ptp with good := false, at_ := s.now } }
  if s.tbOk < 16 || s.locked then s
  else
    let s1 := { s.setReg tbStat (setBits (s.reg tbStat) 31 1 1) with tbLost := false }
    if s.tbLost then s1.logLock 2 else s1

/-- OFFSET, saturated (R333). -/
def satOffset (x : Int) : Int := max (-32767) (min 32767 x)

/-- A forward step moves every time value, those of TIME replies in flight too (R423). -/
def State.stepTime (s : State) (n : Nat) : State :=
  let move := fun (o : Op) => match o.kind, o.status, o.aux with
    | .time _, .issued, [t, h] => { o with aux := [t + n, h] }
    | _, _, _ => o
  { s with tb := s.tb + n, tbHold := 0, ops := s.ops.map move }

/-- A measured offset: OFFSET, lock, and the servo's step or hold beyond 1 µs (R332, R333, R423). -/
def State.takeOffset (s : State) (offset : Int) : State :=
  let s := s.setReg tbStat (setBits (s.reg tbStat) 0 16 (wrap 16 (satOffset offset)))
  let ok := decide (offset.natAbs < 16)
  let s := { (if ok then s else s.loseLock) with ptp := { s.ptp with good := ok } }
  let s : State := s
  if offset < -16000 then s.stepTime offset.natAbs
  else if 16000 < offset ∨ 0 < s.tbHold then { s with tbHold := offset.toNat }
  else s

/-- Whether a group carries time-class flits: up, AFL-3, TIMEEN (R317, R332). -/
def State.timeGroup (s : State) (g : Nat) : Bool :=
  s.groupState g == 2 && (s.reg (lgStat g)).getLsbD 29 && (s.reg (lgCtl g)).getLsbD 28

/-- A Sync and its origin time are there (R332): the offset is the time of receipt less that of origin less the mean path delay. -/
def State.gotSync (s : State) (t1 t2 : Nat) : State :=
  { s with ptp := { s.ptp with sync := some (t1, t2), syncAt := none } }.takeOffset ((t2 : Int) - t1 - s.ptp.delay)

/-- A PTP message at the slave port: Sync, one-step or two-step, Follow_Up, Delay_Resp (R332). -/
def State.slavePtp (s : State) (m : PtpMsg) : State :=
  match m.kind with
  | .sync (some t1) => { s with tbLast := s.now }.gotSync t1 s.tb
  | .sync none => { s with tbLast := s.now, ptp := { s.ptp with syncSeq := m.seq, syncAt := some s.tb } }
  | .followUp t1 => match s.ptp.syncAt with
    | some t2 => if m.seq = s.ptp.syncSeq then s.gotSync t1 t2 else s
    | none => s
  | .delayResp t4 => match s.ptp.reqAt, s.ptp.sync with
    | some t3, some (t1, t2) =>
      if m.seq = s.ptp.reqSeq then
        { s with ptp := { s.ptp with reqAt := none, delay := (((t2 : Int) - t1) + ((t4 : Int) - t3)) / 2 } }
      else s
    | _, _ => s
  | .delayReq => s

/-- PTP_MESSAGE (R332, R333): a PTP message of the package's domain on a group: the slave port of a package that is not grandmaster measures, the
other ports answer delay requests with the time of receipt. -/
def execPtpMessage (group : Fin 16) (m : PtpHead) (kind : PtpKind) (s : State) : Out :=
  .next (
    if !s.up || !s.timeGroup group then s
    else
      let s := s.timeFlit group
      if !(s.reg tbCtl).getLsbD 31 || m.domain != s.domain then s
      else if !s.master && s.slaveGroup == group.val then s.slavePtp { m with kind := kind }
      else match kind with
        | .delayReq => s.sendAs group s.chip s.chip 1 (.time { domain := m.domain, seq := m.seq, kind := .delayResp s.tb })
        | _ => s)

/-- TIMELOCK_LOSS (R333, R423): no sync message for 4 intervals, or an offset of 16 counts or more. -/
def execTimelockLoss (s : State) : Out :=
  .next (
    let off := (sext 16 (bitsOf (s.reg tbStat) 0 16)).natAbs
    if s.locked ∧ !s.master ∧ (s.tbLast + 4 * s.syncLen ≤ s.now ∨ 16 ≤ off) then s.loseLock else s)

/-- A port of the time base sends its messages: a master port a two-step Sync and its Follow_Up, the slave port a delay request (R332). -/
def State.portSync (s : State) (g : Nat) : State :=
  let out := fun (s : State) (seq : Nat) (k : PtpKind) => s.sendAs g s.chip s.chip 1 (.time { domain := s.domain, seq := seq, kind := k })
  let n := s.outbox.length
  if !s.master && s.slaveGroup == g then out { s with ptp := { s.ptp with reqSeq := n, reqAt := some s.tb } } n .delayReq
  else out (out s n (.sync none)) n (.followUp s.tb)

/-- SYNC_INTERVAL (R332, R333): once per sync interval every port of the time base sends its messages, and the slave port's interval counts. -/
def execSyncInterval (s : State) : Out :=
  .next (
    if !s.up || !(s.reg tbCtl).getLsbD 31 || decide (s.now < s.ptp.at_ + s.syncLen) then s
    else
      let s := if s.master then { s with ptp := { s.ptp with at_ := s.now } } else s.countLock
      ((List.range 16).filter s.timeGroup).foldl State.portSync s)

/-- Firmware's best master clock algorithm makes this package grandmaster, or not (R332, R333): only with GM = 1. A grandmaster is in
lock; a package that ceases to be one starts its row of intervals anew. -/
def State.electMaster (s : State) (yes : Bool) : State :=
  if !s.up || yes == s.master || (yes && !(s.reg tbCtl).getLsbD 30) then s
  else
    let s := { s with tbOk := 0, ptp := { s.ptp with good := false } }
    (s.setReg tbStat (setBits (s.reg tbStat) 30 2 (yes.toNat * 3))).logLock 3

/-- A write of TBCTL (R333): without GM the package is no grandmaster. -/
def State.writeTbctl (s : State) (v : Word) : State :=
  let s := s.setReg tbCtl (v &&& 0xC00FF07F)
  if s.master && !v.getLsbD 30 then s.electMaster false else s

end Sys2Proof.Machine
end

