-- ==== Sys2Proof/Machine/Power.lean ====
section
/-! DEFINITION. Power and temperature: steps of the dies' clocks, clock gating (R361), holds and the trip (R362, R427). -/

namespace Sys2Proof.Machine

open Sys2Proof

/-- LIMIT as it acts (R361). -/
def State.powerLimit (s : State) : Nat :=
  let l := bitsOf (s.reg 0x0030) 16 12
  if l = 0 ∨ 3780 < l then 3780 else l

/-- The step a die has, or has been asked to take. -/
def Die.target (d : Die) : Nat := d.freqWant.getD d.step

/-- A step asked for (R361, R417); a held die stays at step 4 (R427). -/
def State.askStep (s : State) (d c : Nat) : State :=
  let c := if (s.die d).hot then 4 else c
  if (s.die d).target = c then s else s.modDie d fun x => { x with freqWant := if x.step = c then none else some c, restarts := [0, 0, 0] }

/-- FCUR and THROT (R361). -/
def State.powerWord (s : State) : Nat :=
  ((List.range 4).map fun d => (s.die d).step * 2 ^ (3 * d) + (decide (s.fmax d < (s.die d).step)).toNat * 2 ^ (12 + d)).sum

/-- POWER_CONTROL_TICK (R361): above LIMIT the die that draws the most goes one code down; below 95 % of it a lowered die goes one code
up, that one or else the first. -/
def execPowerControlTick (power : Nat) (heaviest : Fin 4) (s : State) : Out :=
  .next (
    if !s.up then s
    else
      let s := s.setReg 0x0034 (BitVec.ofNat 32 (min power 4095 * 2 ^ 20))
      let lowered := fun d => decide (s.fmax d < (s.die d).target) && !(s.die d).hot
      if s.powerLimit < power then s.askStep heaviest (min 4 ((s.die heaviest).target + 1))
      else if 100 * power < 95 * s.powerLimit then
        match if lowered heaviest then some heaviest.val else (List.range 4).find? lowered with
        | some d => s.askStep d ((s.die d).target - 1)
        | none => s
      else s)

/-- A write of PWRCTL (R361): a die that runs above its new FMAX goes down to it. -/
def State.writePwrctl (s : State) (v : Word) : State :=
  let s := s.setReg 0x0030 (v &&& 0x0FFF0FFF)
  (List.range 4).foldl (fun s d => if (s.die d).target < s.fmax d then s.askStep d (s.fmax d) else s) s

/-- DIE_CLOCK_GATE (R361): a die without a resident or placed workgroup. It counts clk again once one is placed (Machine/Sched.lean). -/
def execDieClockGate (die : Fin 4) (s : State) : Out :=
  .next (if s.wgs.any fun g => g.onCore && coreDie g.core == die.val then s else s.modDie die fun d => { d with gated := true })

/-- A die's hottest sensor reads a temperature (R362): DIETEMP, and since when it has been at TJMAX. -/
def State.readTemp (s : State) (d temp : Nat) : State :=
  let since := ((s.hotSince.find? fun x => x.1 == d).map Prod.snd).getD s.now
  let rest := s.hotSince.filter fun x => x.1 != d
  { s.setReg (maDie d 0x50) (BitVec.ofNat 32 (min temp 255)) with hotSince := if 105 ≤ temp then (d, since) :: rest else rest }

/-- A THERMAL record (R415). -/
def State.logHeat (s : State) (d sub temp : Nat) : State := s.logLink 8 sub (0x80 + d) (BitVec.ofNat 32 temp) (BitVec.ofNat 32 d)

/-- THERMAL_HOLD (R362, R427): at 100 °C a die is held at step 4. -/
def execThermalHold (die : Fin 4) (temp : Nat) (s : State) : Out :=
  .next (
    if temp < 100 ∨ (s.die die).hot then s
    else (((s.readTemp die temp).modDie die fun d => { d with hot := true }).askStep die 4).logHeat die 1 temp)

/-- THERMAL_HOLD_LEFT (R427): below 95 °C. -/
def execThermalHoldLeft (die : Fin 4) (temp : Nat) (s : State) : Out :=
  .next (
    if 95 ≤ temp ∨ !(s.die die).hot then s
    else ((s.readTemp die temp).modDie die fun d => { d with hot := false }).logHeat die 2 temp)

/-- The trip (R427): the compute dies and the stacks lose power, with them every grid and what the dies and stacks held; the fibre
groups are off, READY clears, FAIL is 9. The Rileveken die's registers and logs stay. -/
def State.trip (s : State) : State :=
  let dead := { s with
    powered := false, picked := [], warps := [], wgs := [], grids := [], ops := [], clusters := s.clusters.map fun _ => Cluster.mk0
    cores := s.cores.map fun _ => Core.mk0, mem := [], memPsn := [], frameLogged := [], atomQ := [], msgs := [], notices := [], holds := []
    jobs := [], nreds := [], cands := [], devBuf := 0, gangs := [], groupUp := [], slices := [], remap := [], frameWant := [], slowQ := []
    flitIn := [], devReqs := s.devReqs.map fun (r : DevReq) => match r.use with
      | .host _ => r
      | _ => { r with use := .spent } }
  let dead := (List.range 16).foldl (fun s g => s.setReg (lgStat g) 0) dead
  dead.setReg 0x0010 (setBits (setBits (s.reg 0x0010) 31 1 0) 24 4 9)

/-- THERMAL_TRIP (R427): 105 °C for 1 ms, or 110 °C. -/
def execThermalTrip (die : Fin 4) (temp : Nat) (s : State) : Out :=
  .next (
    let s1 := s.readTemp die temp
    let long := s1.hotSince.any fun x => x.1 == die.val && decide (x.2 + ms ≤ s.now)
    if !s.powered then s
    else if 110 ≤ temp ∨ (105 ≤ temp ∧ long) then (s1.logHeat die 3 temp).trip
    else s)

end Sys2Proof.Machine
end

