-- ==== Sys2Proof/Machine/Boot.lean ====
section
/-! DEFINITION. Reset and bring-up: the ROM's checks of a firmware slot, boot, recovery (R353, R359, R428, R429), the end of
bring-up (R353, R355, R426), management commands (R360). -/

namespace Sys2Proof.Machine

open Sys2Proof

/-- n bytes of a list from an offset as a little-endian number. -/
def leNat (bs : List Byte) (off n : Nat) : Nat := ((List.range n).map fun i => (bs.getD (off + i) 0).toNat * 256 ^ i).sum

/-- The bytes of a header from an offset. -/
def bytesAt (bs : List Byte) (off n : Nat) : List Byte := (bs.drop off).take n

/-- The code of R428 that the checks of an image come to: 0 accepted (R359). A slot too short for its header or its body counts as
unreadable. -/
def verifyImage (img : FwImage) (svnMin : Nat) : Nat :=
  let h := img.header
  let bodyLen := leNat h 0x10 4
  let key := bytesAt h 0x20 96
  if !img.readable ∨ h.length < 0x200 then 1
  else if leNat h 0 4 ≠ 0x48434D41 ∨ bodyLen % 64 ≠ 0 ∨ 2 ^ 24 < bodyLen then 2
  else if img.body.length < bodyLen then 1
  else if sha384 key ≠ Config.keyHash then 3
  else if (sha384 (img.body.take bodyLen)).toNat ≠ beNat (bytesAt h 0x80 48) then 4
  else if !ecdsaVerifies key (sha384 (h.take 0x100)) (bytesAt h 0x100 96) then 5
  else if leNat h 0x0C 4 < svnMin then 6
  else 0

def bootStat : Nat := 0x0010

/-- BOOTSTAT (R353). -/
def bootWord (ready : Bool) (stage fail svn version : Nat) : Word :=
  BitVec.ofNat 32 (ready.toNat * 2 ^ 31 + stage % 8 * 2 ^ 28 + fail % 16 * 2 ^ 24 + svn % 256 * 2 ^ 16 + version % 2 ^ 16)

def State.stage (s : State) : Nat := bitsOf (s.reg bootStat) 28 3
def State.failCode (s : State) : Nat := bitsOf (s.reg bootStat) 24 4

/-- The ROM measures a slot's image and starts its firmware (R353 step 3, R359). -/
def State.bootSlot (s : State) (slot fail : Nat) : State :=
  match s.flash[slot]? with
  | none => s
  | some img =>
    { s.setReg bootStat (bootWord false 2 fail (leNat img.header 0x0C 4) (leNat img.header 8 2)) with
      slotRun := slot, bootAt := s.now, measured := sha384 (img.header.take 0x160)
      attest := Memory.setList s.attest 0x800 (Config.certificate.take 0x800) }

/-- Recovery (R429): the fibre groups stay off; BOOTSTAT keeps the code. -/
def State.recover (s : State) (fail : Nat) : State := s.setReg bootStat (bootWord false 0 fail 0 0)

/-- The code of a slot's image; a slot that holds nothing is unreadable. -/
def State.slotCode (s : State) (slot : Nat) : Nat := match s.flash[slot]? with
  | some img => verifyImage img s.svnMin
  | none => 1

/-- The ROM verifies (R429): slot 0, else slot 1, else recovery with slot 0's code. -/
def State.romBoot (s : State) : State :=
  let f := s.slotCode 0
  if f = 0 then s.bootSlot 0 0
  else if s.slotCode 1 = 0 then s.bootSlot 1 f
  else s.recover f

/-- The package after power-good, with what its flash and fuses keep: the images, SVNMIN, the retirement list while the flash has not
been rewritten (R426). The model's agenda and what has left the package stay. -/
def State.fromPowerGood (s : State) (flash : List FwImage) : State :=
  { State.reset with
    agenda := s.agenda, replies := s.replies, outbox := s.outbox, svnMin := s.svnMin, flash := flash
    retired := if s.flash = flash then s.retired else [] }

/-- POWER_GOOD (R353, R429): the ROM runs, BOOTSTAT.STAGE is 0. -/
def execPowerGood (slot0 slot1 : FwImage) (s : State) : Out := .next (s.fromPowerGood [slot0, slot1])

/-- The ROM goes on (R353, R429): from STAGE 0 to verifying; then it boots a slot or enters recovery. After code 10 only the other slot is
left. -/
def State.romStep (s : State) : State :=
  if s.up || !s.powered then s
  else match s.stage, s.failCode with
    | 0, 0 => s.setReg bootStat (bootWord false 1 0 0 0)
    | 1, 10 => if s.slotCode (1 - s.slotRun) = 0 then s.bootSlot (1 - s.slotRun) 10 else s.recover 10
    | 1, _ => s.romBoot
    | _, _ => s

/-! ### The end of bring-up -/

/-- The fields of a retired unit (R426). -/
def retType (w : Word) : Nat := bitsOf w 30 2
def retDie (w : Word) : Nat := bitsOf w 28 2
def retUnit (w : Word) : Nat := bitsOf w 8 8
def retCore (w : Word) : Nat := bitsOf w 0 8

/-- A bit of a mask cleared. -/
def unset {n : Nat} (m : BitVec n) (i : Nat) : BitVec n := m &&& ~~~(BitVec.ofNat n (2 ^ i))

/-- A die's capability words with a listed unit absent (R29, R426). -/
def Die.retire (x : Die) (d : Nat) (w : Word) : Die :=
  if retDie w ≠ d then x
  else match retType w with
    | 0 =>
      let m := unset (x.coremask.getD (retUnit w) 0) (retCore w)
      let x := { x with coremask := x.coremask.set (retUnit w) m }
      if m = 0 then { x with clmask := unset x.clmask (retUnit w) } else x
    | 1 => { x with clmask := unset x.clmask (retUnit w) }
    | 2 => if retUnit w < 32 then { x with sliceLo := unset x.sliceLo (retUnit w) }
      else { x with sliceHi := unset x.sliceHi (retUnit w - 32) }
    | _ => x

/-- A die as its fuses and the retirement list leave it. -/
def dieOf (f : Fuses) (retired : List Word) (d : Nat) : Die :=
  let x : Die := { clmask := f.clmask.getD d 0, coremask := (List.range 16).map fun c => f.coremask.getD (16 * d + c) 0
                   sliceLo := f.sliceLo.getD d 0, sliceHi := f.sliceHi.getD d 0 }
  retired.foldl (fun x w => x.retire d w) x

/-- The stacks present: fused, not retired, not failed (R428 code 8). -/
def stacksOf (f : Fuses) (retired : List Word) : BitVec 16 :=
  let m := retired.foldl (fun m w => if retType w = 3 then unset m (4 * retDie w + retUnit w) else m) f.hbm
  f.badStack.foldl (fun m (i : Fin 16) => unset m i.val) m

/-- Whether fuses are those of a shipped part (R28, R29): every present cluster has a core, every die a cluster, a home slice and a stack, and
CAPS_LINK's counts keep their ranges. -/
def shippedFuses (f : Fuses) : Bool :=
  ((List.range 4).all fun d =>
    let x := dieOf f [] d
    x.clmask != 0 && (x.sliceLo != 0 || x.sliceHi != 0) && f.hbm.toNat / 2 ^ (4 * d) % 16 != 0 &&
      (List.range 16).all fun c => !x.clmask.getLsbD c || x.coremask.getD c 0 != 0) &&
    decide (1 ≤ bitsOf f.capsLink 16 8) && decide (bitsOf f.capsLink 16 8 ≤ 128) && decide (bitsOf f.capsLink 8 8 ≤ 64) && decide (bitsOf f.capsLink 0 8 ≤ 64)

/-- The capability registers loaded from the fuses, links and memory up (R353 step 4). -/
def State.linksUp (s : State) (f : Fuses) (fail : Nat) : State :=
  { s with
    dies := (List.range 4).map (dieOf f s.retired), links := List.replicate 12 DieLink.mk0, hbm := stacksOf f s.retired
    capsLink := f.capsLink &&& 0x03FFFFFF, bootmask := f.bootmask, hostGroup := f.bridge.map Fin.val }.setReg bootStat
      (setBits (setBits (s.reg bootStat) 24 4 fail) 28 4 3)

/-- Every register at its reset value, the boot groups enabled, READY set (R353 step 5, R355). -/
def State.endReset (s : State) : State :=
  let boot := s.reg bootStat
  let s := { s with mgmt := [], aperture := true }
  let s := ((List.range 16).filter fun g => s.bootmask.getLsbD g).foldl (fun s g =>
    s.writeLgctl g (BitVec.ofNat 32 (2 ^ 31 + (if s.hostGroup = some g then 2 ^ 29 else 0) + 128 * 2 ^ 8 + 4))) s
  s.setReg bootStat (setBits boot 28 4 (8 + 3))

/-- BRINGUP_COMPLETE (R353, R428): the firmware's two last steps. First links and memory: a die without a link leaves code 7, a die whose
stacks all fail code 8, both in recovery; else the capability registers are loaded and STAGE is 3, with code 8 where a stack is left out. Then
the registers, the boot groups, READY. Fuses that are no shipped part's do not occur (R29). -/
def execBringupComplete (f : Fuses) (s : State) : Out :=
  .next (
    if s.up || !s.powered then s
    else if s.stage = 3 then s.endReset
    else if s.stage ≠ 2 ∨ !shippedFuses f then s
    else if !f.isolated.isEmpty then s.recover 7
    else if (List.range 4).any fun d => ((stacksOf f s.retired).toNat / 2 ^ (4 * d)) % 16 == 0 then s.recover 8
    else s.linksUp f (if f.badStack.isEmpty then s.failCode else 8))

/-- FIRMWARE_TIMEOUT (R428, R429): no READY within 30 s: the Rileveken die is reset and the ROM verifies the other slot; a second time it
enters recovery. -/
def execFirmwareTimeout (s : State) : Out :=
  .next (
    if s.up || !s.powered || decide (s.stage < 2) || !s.after s.bootAt (30000 * ms) then s
    else if s.failCode = 10 then s.recover 10
    else { s.fromPowerGood s.flash with now := s.now, slotRun := s.slotRun }.setReg bootStat (bootWord false 1 10 0 0))

/-! ### Management commands (R360) -/

def mgCmd : Nat := 0x0040

/-- MGARGHI and MGARGLO. -/
def State.mgArg (s : State) : Nat := (s.reg 0x004C).toNat * 2 ^ 32 + (s.reg 0x0048).toNat

/-- The placed grid of an ASID whose record lies at the argument. -/
def State.mgGrid (s : State) (asid : Nat) : Option Nat :=
  s.grids.findIdx? fun g => g.asid == asid && g.addr == s.mgArg && (g.status == .placed || g.status == .released)

/-- RESULT and ASID of MGCMD after a command. -/
def State.mgDone (s : State) (v : Word) (result : Nat) : State := s.setReg mgCmd (BitVec.ofNat 32 (result * 2 ^ 24 + bitsOf v 0 13))

/-- PREEMPT (R305, R360): every workgroup of the grid is requested by command. -/
def State.mgPreempt (s : State) (v : Word) : State :=
  match s.mgGrid (bitsOf v 0 13) with
  | none => s.mgDone v 1
  | some gi =>
    let ask := fun (g : Workgroup) =>
      if g.grid == gi && !(g.status == .ended || g.status == .terminated) then
        { g with byCmd := true, preempt := g.preempt || g.status != .evicted } else g
    { s with wgs := s.wgs.map ask }.mgDone v 0

/-- RESUME (R305, R360). -/
def State.mgResume (s : State) (v : Word) : State :=
  match s.mgGrid (bitsOf v 0 13) with
  | none => s.mgDone v 1
  | some gi =>
    if !(s.wgs.any fun g => g.grid == gi && g.byCmd) then s.mgDone v 2
    else
      let free := fun (g : Workgroup) => if g.grid == gi then { g with byCmd := false } else g
      { s with wgs := s.wgs.map free }.mgDone v 0

/-- A word as four bytes. -/
def wordBytes (w : Word) : List Byte := leBytes 4 w.toNat

/-- All capability values of the package (R24 to R28). -/
def State.capsBytes (s : State) : List Byte :=
  wordBytes s.capsPkg ++ wordBytes s.capsLink ++ s.dies.flatMap fun d =>
    wordBytes d.capsDie ++ wordBytes d.sliceLo ++ wordBytes d.sliceHi ++ (List.range 16).flatMap fun c => wordBytes (d.capsCl c)

/-- Whether ATTEST can read its nonce: 48 bytes of fitted memory without an error. The spec does not say when a command is refused: the model
refuses this one (DESIGN CHOICE, notes/assumptions/61.md). -/
def State.nonceBad (s : State) : Bool :=
  !s.fitted 0 (s.mgArg % 2 ^ 40) || !s.fitted 0 (s.mgArg % 2 ^ 40 + 47) || Marks.read s.memPsn (physKey 0 (s.mgArg % 2 ^ 40)) 48 != 0

/-- The attestation public key, as SEC 1 has its two coordinates (R359). -/
def attestKey (measured : BitVec 384) : List Byte :=
  beBytes 48 (Config.attestKey.key measured).1.toNat ++ beBytes 48 (Config.attestKey.key measured).2.toNat

/-- ATTEST (R360): the report and its signature, at attestation-area offset 0. -/
def State.mgAttest (s : State) (v : Word) : State :=
  if s.nonceBad then s.mgDone v 3
  else
    let nonce := Memory.list s.mem (physKey 0 (s.mgArg % 2 ^ 40)) 48
    let key := attestKey s.measured
    let report := Config.report [nonce, beBytes 48 s.measured.toNat, wordBytes (s.reg bootStat), wordBytes (s.reg 0x0020), s.capsBytes, key,
      Config.identitySign s.measured key]
    { s with attest := Memory.setList s.attest 0 ((report ++ Config.attestSign s.measured report).take 0x800) }.mgDone v 0

/-- COMMIT (R360, R429): SVNMIN := the running SVN. -/
def State.mgCommit (s : State) (v : Word) : State := { s with svnMin := bitsOf (s.reg bootStat) 16 8 }.mgDone v 0

/-- BUSY of MGCMD. -/
def State.mgBusy (s : State) : Bool := (s.reg mgCmd).getLsbD 27

/-- A write of MGCMD (R360): ignored while a command runs. A command begins: bits 31:28, which read 0, hold it until it is done. -/
def State.writeMgcmd (s : State) (v : Word) : State :=
  if s.mgBusy then s
  else
    let cmd := bitsOf v 28 4
    let begins := 1 ≤ cmd ∧ cmd ≤ 4
    s.setReg mgCmd (BitVec.ofNat 32 ((if begins then cmd * 2 ^ 28 + 2 ^ 27 else 0) + bitsOf (s.reg mgCmd) 24 3 * 2 ^ 24 + bitsOf v 0 13))

/-- The running command, if it is `cmd`, is done; with none running, a write of v has issued it and it is done. -/
def State.mgRun (s : State) (cmd : Nat) (v : Word) (f : State → Word → State) : State :=
  if !s.up then s
  else if s.mgBusy then (if bitsOf (s.reg mgCmd) 28 4 = cmd then f s (s.reg mgCmd) else s)
  else if bitsOf v 28 4 = cmd then f s v
  else s

/-- MGCMD_PREEMPT (R360). -/
def execMgcmdPreempt (v : Word) (s : State) : Out := .next (s.mgRun 1 v State.mgPreempt)

/-- MGCMD_RESUME (R360). -/
def execMgcmdResume (v : Word) (s : State) : Out := .next (s.mgRun 2 v State.mgResume)

/-- MGCMD_ATTEST (R360). -/
def execMgcmdAttest (v : Word) (s : State) : Out := .next (s.mgRun 3 v State.mgAttest)

/-- MGCMD_COMMIT_SVNMIN (R360). -/
def execMgcmdCommitSvnmin (v : Word) (s : State) : Out := .next (s.mgRun 4 v State.mgCommit)

end Sys2Proof.Machine
end

