-- ==== Sys2Proof/Machine/Mgmt.lean ====
section
/-! DEFINITION. The management space (R351, R352): what a read of an address answers and changes, what a write does; peer access
(R355), the physical windows (R357), retiring units (R426). One definition per register write and read event. -/

namespace Sys2Proof.Machine

open Sys2Proof

/-- What lies at a management address (R351). -/
inductive Block where
  | pkg (off : Nat)
  | die (d off : Nat)
  | cluster (cl off : Nat)
  | core (k off : Nat)
  | window (d off : Nat)
  | absent
  deriving DecidableEq, Repr

/-- The block of an address; an absent unit's block is absent (R29). -/
def State.blockAt (s : State) (ma : Nat) : Block :=
  if ma % 4 ≠ 0 ∨ 2 ^ 25 ≤ ma then .absent
  else if ma < 2 ^ 24 then .pkg ma
  else
    let d := (ma - 2 ^ 24) / 0x400000
    let off := ma % 0x400000
    if off < 0x100000 then .die d off
    else if off < 0x200000 then
      let cl := 16 * d + (off - 0x100000) / 0x10000
      let o := off % 0x10000
      if !s.clusterPresent cl then .absent
      else if o < 0x8000 then .cluster cl o
      else
        let k := 12 * cl + (o - 0x8000) / 0x400
        if (o - 0x8000) / 0x400 < 12 && s.corePresent k then .core k (o % 0x400) else .absent
    else if off < 0x300000 then .window d (off - 0x200000)
    else .absent

/-! ### Physical windows (R357) -/

/-- The key in memory of an offset of a die's window. -/
def State.windowKey (s : State) (d off : Nat) : Nat := physKey d (bitsOf (s.reg (maDie d 0x58)) 0 20 * 2 ^ 20 + off)

/-- The ASID whose gang-map address lies at a key of memory (R356). -/
def State.gangOf (s : State) (key : Nat) : Option Nat :=
  let t := physKey 0 s.asidTable
  if t ≤ key ∧ key < t + 64 * 8192 ∧ 0x20 ≤ (key - t) % 64 ∧ (key - t) % 64 < 0x28 then some ((key - t) / 64) else none

/-- The word at an offset of a die's window: straight from the HBM, past every cache; where no stack is fitted it reads 0
(notes/assumptions/81.md). -/
def State.readWindow (s : State) (d off : Nat) : Word :=
  let k := s.windowKey d off
  if s.fitted d k then BitVec.ofNat 32 (bytesNat ((List.range 4).map fun b => s.hbmByte (k + b))) else 0

/-- A word written through a window; a new gang-map address makes the ASID's entries be read again (R326). -/
def State.writeWindow (s : State) (d off : Nat) (v : Word) : State :=
  let k := s.windowKey d off
  let gangs := match s.gangOf k with
    | some a => s.gangs.filter fun g => g.1 != a
    | none => s.gangs
  if s.fitted d k then { s.hbmWrite k v with gangs := gangs } else s

/-! ### Reads -/

/-- DBGSTAT (R347). -/
def State.dbgWord (s : State) (cl : Nat) : Word :=
  let c := s.cluster cl
  let st := match c.dbg with
    | .none | .stepping => 0
    | .stopping => 1
    | .stopped => 2
  BitVec.ofNat 32 (st * 2 ^ 30 + bitsOf (s.reg (dbgStat cl)) 29 1 * 2 ^ 29 + c.dbgCause % 256 * 2 ^ 16)

/-- A Rileveken register read: the word, and the state after it. -/
def State.readPkg (s : State) (off : Nat) : Word × State :=
  if off = 0x34 then (s.reg off ||| BitVec.ofNat 32 s.powerWord, s)
  else if off = 0x40 then (s.reg off &&& 0x0FFFFFFF, s)
  else if off = 0x78 then (BitVec.ofNat 32 s.tb, { s with tbLatch := BitVec.ofNat 32 (s.tb / 2 ^ 32) })
  else if off = 0x7C then (s.tbLatch, s)
  else if off = 0x90 then (s.capsPkg, s)
  else if off = 0x94 then (s.capsLink, s)
  else if off = 0xA4 then (BitVec.ofNat 32 s.retired.length, s)
  else if off = 0x3008 ∨ off = 0x3018 ∨ off = 0x3028 then (s.reg off, s.setReg off 0)
  else if 0x20000 ≤ off ∧ off < 0x21000 then (Memory.word s.attest (off - 0x20000), s)
  else (s.reg off, s)

/-- A die register read. -/
def State.readDie (s : State) (d off : Nat) : Word × State :=
  let ma := maDie d off
  if off = 0 then ((s.die d).capsDie, s)
  else if off = 4 then ((s.die d).sliceLo, s)
  else if off = 8 then ((s.die d).sliceHi, s)
  else if off = 0xC then (dieOrient d, s)
  else if off = 0x50 then (s.reg ma ||| BitVec.ofNat 32 (105 * 256), s)
  else if off = 0x88 ∨ off = 0x90 then (s.reg ma, s.setReg ma 0)
  else (s.reg ma, s)

/-- A cluster register read. -/
def State.readCl (s : State) (cl off : Nat) : Word × State :=
  let ma := maCl cl off
  if off = 0 then ((s.die (cl / 16)).capsCl (cl % 16), s)
  else if off = 0x28 ∨ off = 0x58 then (s.reg ma, s.setReg ma 0)
  else if off = 0xC4 then (s.dbgWord cl, s)
  else (s.reg ma, s)

/-- The MA of a stall counter's low word (R352). -/
def stallMa (k e u : Nat) : Nat := maCore k (0x100 + 0x40 * e + 8 * u)

/-- A core register read: stall counters latch their high words (R342). -/
def State.readCore (s : State) (k off : Nat) : Word × State :=
  let e := (off - 0x100) / 0x40
  let u := (off - 0x100) % 0x40 / 8
  if off < 0x100 ∨ 6 ≤ e ∨ 7 ≤ u then (0, s)
  else if off % 8 = 0 then
    let v := (s.core k).stallCount e u
    (BitVec.ofNat 32 v, { s with stallLatch := mapSet s.stallLatch (stallMa k e u) (BitVec.ofNat 32 (v / 2 ^ 32)) })
  else (mapGet s.stallLatch (stallMa k e u) 0, s)

/-- A read of the management space (R351); before READY only BOOTSTAT answers (R353). -/
def State.mgmtRead (s : State) (ma : Nat) : Word × State :=
  if !s.up then (if ma = bootStat then s.reg ma else 0, s)
  else match s.blockAt ma with
    | .pkg off => s.readPkg off
    | .die d off => s.readDie d off
    | .cluster cl off => s.readCl cl off
    | .core k off => s.readCore k off
    | .window d off => (s.readWindow d off, s)
    | .absent => (0, s)

/-- A read whose word goes to its reader. -/
def State.readReply (s : State) (ma : Nat) : State :=
  let (v, t) := s.mgmtRead ma
  { t with replies := .mgmt v :: t.replies }

/-! ### Writes -/

/-- CHIPID (R323). -/
def State.writeChipid (s : State) (v : Word) : State :=
  let peers := (List.range 16).any fun g => (s.reg (lgCtl g)).getLsbD 31 && !(s.reg (lgCtl g)).getLsbD 29
  if (s.reg 0x0020).getLsbD 31 && peers then s else s.setReg 0x0020 (BitVec.ofNat 32 (2 ^ 31 + bitsOf v 0 20))

/-- MGAPLO (R354, R355). -/
def State.writeMgaplo (s : State) (v : Word) : State :=
  { s.setReg 0x0080 (v &&& 0x80000001) with aperture := s.aperture && !v.getLsbD 0 }

/-- Whether a unit that RETIRE names is present (R426). -/
def State.unitPresent (s : State) (v : Word) : Bool :=
  let d := retDie v
  let u := retUnit v
  match retType v with
  | 0 => decide (u < 16) && decide (retCore v < 12) && s.corePresent (12 * (16 * d + u) + retCore v)
  | 1 => decide (u < 16) && s.clusterPresent (16 * d + u)
  | 2 => if u < 32 then (s.die d).sliceLo.getLsbD u else decide (u < 64) && (s.die d).sliceHi.getLsbD (u - 32)
  | _ => decide (u < 4) && s.hbm.getLsbD (4 * d + u)

/-- RETIRE (R426): the unit joins the list in the flash; nothing else changes before the next bring-up. -/
def State.writeRetire (s : State) (v : Word) : State :=
  let v := if retType v = 0 then v &&& 0xF000FFFF else v &&& 0xF000FF00
  let list := s.retired ++ [v]
  let d := retDie v
  let x := list.foldl (fun x w => x.retire d w) (s.die d)
  let st := list.foldl (fun m w => if retType w = 3 then unset m (4 * retDie w + retUnit w) else m) s.hbm
  let left := x.clmask != 0 && (x.sliceLo != 0 || x.sliceHi != 0) && st.toNat / 2 ^ (4 * d) % 16 != 0
  if !s.unitPresent v || s.retired.contains v || !left then s else { s with retired := list }

/-- PXCTL (R355): with GO a peer access is sent, or fails at once. -/
def State.writePxctl (s : State) (v : Word) : State :=
  let old := s.reg 0x00B0
  let busy := old.getLsbD 30
  let base := bitsOf v 28 1 * 2 ^ 28 + bitsOf v 0 4
  if busy || !v.getLsbD 31 then s.setReg 0x00B0 (BitVec.ofNat 32 (bitsOf old 29 2 * 2 ^ 29 + base))
  else
    let g := bitsOf v 0 4
    let read := bitsOf v 28 1 == 0
    if s.groupState g ≠ 2 ∨ (s.reg (lgCtl g)).getLsbD 29 then
      let s := s.setReg 0x00B0 (BitVec.ofNat 32 (2 ^ 29 + base))
      if read then s.setReg 0x00B8 0xFFFFFFFF else s
    else
      let s := s.setReg 0x00B0 (BitVec.ofNat 32 (2 ^ 30 + base))
      { s with pxSince := s.now, pxRead := read }.send g s.chip (.peer (!read) (s.reg 0x00B4).toNat (s.reg 0x00B8))

/-- The outstanding peer access ends: answered with a word, or failed. -/
def State.endPeer (s : State) (answer : Option Word) : State :=
  let old := s.reg 0x00B0
  if !old.getLsbD 30 then s
  else
    let s := s.setReg 0x00B0 (setBits old 29 2 (if answer.isNone then 1 else 0))
    if s.pxRead then s.setReg 0x00B8 (answer.getD 0xFFFFFFFF) else s

/-- DBGCMD (R347, R349). -/
def State.writeDbgcmd (s : State) (cl : Nat) (v : Word) : State :=
  let run := fun (o : Out) => match o with
    | .next t => t
    | _ => s
  match bitsOf v 28 4 with
  | 1 => run (execDbgcmdStop cl s)
  | 2 => run (execDbgcmdResume cl s)
  | 3 => run (execDbgcmdResumeLoad cl s)
  | 4 => run (execDbgcmdStep cl s)
  | _ => s

/-- The registers of a host window that software may write (R330). -/
def windowMask (n : Nat) : Word :=
  match n with
  | 0 => 0xFFFC0000
  | 1 => 0x000FFFFF
  | 2 => 0xFFFF0000
  | 3 => 0xFFFFFFFF
  | 4 => 0x00FFFFFF
  | 5 => 0xFFFF0000
  | 6 => 0x000FFFFF
  | _ => 0

/-- A Rileveken register written. -/
def State.writePkg (s : State) (off : Nat) (v : Word) : State :=
  let px := (s.reg 0x00B0).getLsbD 30
  if off = 0x20 then s.writeChipid v
  else if off = 0x30 then s.writePwrctl v
  else if off = 0x40 then s.writeMgcmd v
  else if off = 0x48 ∨ off = 0x4C ∨ off = 0x60 ∨ off = 0x84 ∨ off = 0x3004 ∨ off = 0x3014 ∨ off = 0x3024 then s.setReg off v
  else if off = 0x50 then s.setReg off (v &&& 0xFFFF0000)
  else if off = 0x54 then s.setReg off (v &&& 0xFF)
  else if off = 0x70 then s.writeTbctl v
  else if off = 0x80 then s.writeMgaplo v
  else if off = 0xA0 then s.writeRetire v
  else if off = 0xB0 then s.writePxctl v
  else if off = 0xB4 then (if px then s else s.setReg off (v &&& 0x01FFFFFC))
  else if off = 0xB8 then (if px then s else s.setReg off v)
  else if 0x100 ≤ off ∧ off < 0x200 then (if off % 16 = 0 then s.writeLgctl ((off - 0x100) / 16) v else s)
  else if 0x1000 ≤ off ∧ off < 0x1400 then
    let q := (off - 0x1000) / 16
    match off % 16 with
    | 0 => s.writeLqctl q v
    | 4 => s.writeLqbase q off (v &&& 0xFFFFFFF8)
    | 8 => s.writeLqbase q off (v &&& 0x000FFFFF)
    | _ => s.writeLqtail q v
  else if 0x2000 ≤ off ∧ off < 0x2200 then s.setReg off (v &&& windowMask (off % 32 / 4))
  else if (0x10000 ≤ off ∧ off < 0x10100) ∨ (0x11000 ≤ off ∧ off < 0x12000) then s.setReg off (v &&& 0x8F8F8F8F)
  else s

/-- A die register written. -/
def State.writeDie (s : State) (d off : Nat) (v : Word) : State :=
  let ma := maDie d off
  if off = 0x10 ∨ off = 0x24 ∨ off = 0x84 then s.setReg ma v
  else if off = 0x14 then s.setReg ma (v &&& 0xFFFF)
  else if off = 0x20 ∨ off = 0x30 ∨ off = 0x40 then s.setReg ma (v &&& 0x00FFFFFF)
  else if off = 0x3C then s.addFrame d 0 (bitsOf v 0 24)
  else if off = 0x4C then s.addFrame d 1 (bitsOf v 0 24)
  else if off = 0x58 then s.setReg ma (v &&& 0x000FFFFF)
  else s

/-- Whether the trace buffer's registers may be written (R336). -/
def State.traceIdle (s : State) (cl : Nat) : Bool := !(s.reg (trCtl cl)).getLsbD 31 && (s.cluster cl).fifo.isEmpty

/-- A cluster register written. -/
def State.writeCl (s : State) (cl off : Nat) (v : Word) : State :=
  let ma := maCl cl off
  let put := fun (free : Bool) (m : Word) => if free then s.setReg ma (v &&& m) else s
  let stFree := !(s.reg (stCtl cl)).getLsbD 31
  if off = 0x10 then s.writeTrctl cl v
  else if off = 0x14 ∨ off = 0x1C then put (s.traceIdle cl) 0xFFFFFF80
  else if off = 0x18 then put (s.traceIdle cl) 0x000FFFFF
  else if off = 0x24 then s.writeTrrp cl v
  else if off = 0x40 then s.writeStctl cl v
  else if off = 0x44 ∨ off = 0x4C then put stFree 0xFFFFFF80
  else if off = 0x48 then put stFree 0x000FFFFF
  else if off = 0x54 then s.writeStrp cl v
  else if 0x80 ≤ off ∧ off < 0xC0 then
    match off % 16 with
    | 0 => put true 0xFFFFFFFD
    | 4 => put true 0x000FFFFF
    | 8 => put true 0x00001FFF
    | _ => s
  else if off = 0xC0 then s.writeDbgcmd cl v
  else if off = 0xC4 then (if v.getLsbD 29 then s.setReg ma (setBits (s.reg ma) 29 1 0) else s)
  else if off = 0xC8 ∨ off = 0xCC then s.setReg ma v
  else if off = 0xD0 then put true 0x000FFFFF
  else s

/-- Every stall counter of a core cleared (R342). -/
def State.clearStalls (s : State) (k : Nat) : State := s.modCore k fun c => { c with stall := [] }

/-- A write to the management space (R351); before READY, to an absent unit and to an unlisted or read-only register it is ignored. -/
def State.mgmtWrite (s : State) (ma : Nat) (v : Word) : State :=
  if !s.up then s
  else match s.blockAt ma with
    | .pkg off => s.writePkg off v
    | .die d off => s.writeDie d off v
    | .cluster cl off => s.writeCl cl off v
    | .core k off => if off = 0 then s.clearStalls k else s
    | .window d off => s.writeWindow d off v
    | .absent => s

/-! ### The register events -/

/-- REGISTER_WRITE (R351). -/
def execRegisterWrite (ma : Nat) (v : Word) (s : State) : Out := .next (s.mgmtWrite ma v)

/-- CHIPID_WRITE (R323). -/
def execChipidWrite (v : Word) (s : State) : Out := .next (if s.up then s.writeChipid v else s)

/-- LQCTL_WRITE (R293). -/
def execLqctlWrite (q : Fin 64) (v : Word) (s : State) : Out := .next (if s.up then s.writeLqctl q v else s)

/-- LQTAIL_WRITE (R294). -/
def execLqtailWrite (q : Fin 64) (v : Word) (s : State) : Out := .next (if s.up then s.writeLqtail q v else s)

/-- MGAPLO_WRITE (R354). -/
def execMgaploWrite (v : Word) (s : State) : Out := .next (if s.up then s.writeMgaplo v else s)

/-- FLADD_WRITE (R358). -/
def execFladdWrite (die : Fin 4) (list : Fin 2) (v : Word) (s : State) : Out :=
  .next (if s.up then s.addFrame die list (bitsOf v 0 24) else s)

/-- TRCTL_WRITE (R335). -/
def execTrctlWrite (cluster : Nat) (v : Word) (s : State) : Out := .next (if s.clusterUp cluster then s.writeTrctl cluster v else s)

/-- TRRP_WRITE (R336). -/
def execTrrpWrite (cluster : Nat) (v : Word) (s : State) : Out := .next (if s.clusterUp cluster then s.writeTrrp cluster v else s)

/-- STCTL_SPILL_ALL (R344): a write of STCTL; bit 0 spills every entry. -/
def execStctlSpillAll (cluster : Nat) (v : Word) (s : State) : Out :=
  .next (if s.clusterUp cluster then s.writeStctl cluster v else s)

/-- STRP_WRITE (R345). -/
def execStrpWrite (cluster : Nat) (v : Word) (s : State) : Out := .next (if s.clusterUp cluster then s.writeStrp cluster v else s)

/-- RETIRE_WRITE (R426). -/
def execRetireWrite (v : Word) (s : State) : Out := .next (if s.up then s.writeRetire v else s)

/-- ECCLR_WRITE (R342): whatever is written. -/
def execEcclrWrite (core : Nat) (_v : Word) (s : State) : Out := .next (if s.up && s.corePresent core then s.clearStalls core else s)

/-- TBLO_READ (R332). -/
def execTbloRead (s : State) : Out := .next (s.readReply 0x0078)

/-- STALL_COUNTER_READ (R342). -/
def execStallCounterRead (core : Nat) (engine : Fin 6) (cause : Fin 7) (s : State) : Out := .next (s.readReply (stallMa core engine cause))

/-- TRDROP_READ (R336). -/
def execTrdropRead (cluster : Nat) (s : State) : Out := .next (s.readReply (trDrop cluster))

/-- STLOST_READ (R345). -/
def execStlostRead (cluster : Nat) (s : State) : Out := .next (s.readReply (stLost cluster))

/-- ELLOST_READ (R384). -/
def execEllostRead (s : State) : Out := .next (s.readReply 0x3008)

/-- MELLOST_READ (R398): of a die, or of the Rileveken die (4). -/
def execMellostRead (unit : Fin 5) (s : State) : Out :=
  .next (s.readReply (if unit.val = 4 then 0x3028 else maDie unit.val 0x88))

/-- LLLOST_READ (R414). -/
def execLllostRead (s : State) : Out := .next (s.readReply 0x3018)

/-- CECNT_READ (R398). -/
def execCecntRead (die : Fin 4) (s : State) : Out := .next (s.readReply (maDie die 0x90))

/-- PHYSICAL_WINDOW_ACCESS (R357). -/
def execPhysicalWindowAccess (die : Fin 4) (off : Nat) (data : Option Word) (s : State) : Out :=
  .next (
    let ma := maDie die (0x200000 + off % 0x100000)
    match data with
    | some v => s.mgmtWrite ma v
    | none => s.readReply ma)

/-! ### Peer access (R355) -/

/-- PXCTL_GO (R355). -/
def execPxctlGo (v : Word) (s : State) : Out := .next (if s.up && v.getLsbD 31 then s.writePxctl v else s)

/-- A peer's access is applied and answered. -/
def State.servePeer (s : State) (g : Nat) (write : Bool) (ma : Nat) (data : Word) : State :=
  if s.groupState g ≠ 2 then s
  else if write then (s.mgmtWrite ma data).send g s.chip (.peerAnswer true 0)
  else
    let (v, t) := s.mgmtRead ma
    t.send g s.chip (.peerAnswer true v)

/-- PEER_ACCESS (R355). -/
def execPeerAccess (group : Fin 16) (write : Bool) (ma : Nat) (data : Word) (s : State) : Out := .next (s.servePeer group write ma data)

/-- PEER_ACCESS_TIMEOUT (R355): unanswered for 1 ms. -/
def execPeerAccessTimeout (s : State) : Out := .next (if s.pxSince + ms ≤ s.now then s.endPeer none else s)

/-- PEER_ACCESS_ANSWER (R355). -/
def execPeerAccessAnswer (ok : Bool) (data : Word) (s : State) : Out := .next (s.endPeer (if ok then some data else none))

end Sys2Proof.Machine
end

