-- ==== Sys2Proof/Machine/Remote.lean ====
section
/-! DEFINITION. Requests of other packages served at home (R117, R402), the answers they get, the answers that this package's own
requests get, and their timeout (R421). -/

namespace Sys2Proof.Machine

open Sys2Proof

/-! ### Requests of other packages -/

/-- What a request finds at its canonical page (R117, R402, R403, R416). -/
inductive Visit where
  | waits
  | late (cause : Nat)
  | go (key : Nat)
  deriving DecidableEq, Repr

/-- The canonical page of a request, and its permissions. A request for a frame beyond the fitted memory is never answered
(notes/assumptions/81.md). -/
def State.visit (s : State) (asid va : Nat) (write atomics : Bool) : Visit :=
  match s.walk asid va with
  | none => .late 0x10
  | some e =>
    match permCheck (if e.isAlias then noPage else e.w0) write atomics, s.placeIn e asid va with
    | .fail c, _ => .late c
    | _, .here k _ _ => if (s.die (homeDie va)).isolated then .late 0x10 else if s.linkHeld 4 (homeDie va) then .waits else .go k
    | _, .alloc _ _ | _, .absent => .waits
    | _, _ => .late 0x10

/-- CLASS of a message (R319). -/
def msgClass (m : FabMsg) : Nat :=
  match m with
  | .read .. | .write .. | .atom .. | .cas .. | .mgmt .. => 0
  | .reply .. | .atomReply .. | .notice .. => 1
  | .active .. => 2
  | .splice .. => 3
  | .time _ => 4
  | .control _ | .peer .. | .peerAnswer .. => 5

/-- A DROP record (R415). -/
def State.logDrop (s : State) (sub link : Nat) (h : BitVec 64) : State :=
  s.logLink 5 sub link (BitVec.ofNat 32 h.toNat) (BitVec.ofNat 32 (h.toNat / 2 ^ 32))

/-- The header of the first flit of a message of this package (R319); its place in the link's sequence is free. -/
def State.ownHeader (s : State) (m : FabMsg) (chip : Nat) : BitVec 64 :=
  BitVec.ofNat 64 (msgClass m * 2 ^ 60 + chip % 2 ^ 20 * 2 ^ 40 + s.chip * 2 ^ 20 + (msgFlits s.outbox.length m - 1) * 2 ^ 16 +
    (Config.lseq s.outbox.length).toNat)

/-- A response goes back to its requester; unreachable, it is discarded with a DROP record (R421). None: the group of its route is in
training. -/
def State.answer (s : State) (chip : Nat) (m : FabMsg) : Option State :=
  match s.route chip with
  | .group g => some (s.send g chip m)
  | .waits _ => none
  | _ => some (s.logDrop 3 (s.routeByte chip % 16) (s.ownHeader m chip))

/-- A LATE record about another package's access: it names no workgroup of this one (R399). -/
def State.logVisit (s : State) (asid va cause kind : Nat) : State :=
  s.logMem (homeDie va) (recordWords 4 0 asid 0 0 va (BitVec.ofNat 32 cause) (BitVec.ofNat 32 kind))

/-- Whether a queued atomic names the same grain: it goes first (R128). -/
def State.grainBusy (s : State) (asid va : Nat) : Bool := s.atomQ.any fun r => s.grainAt r.asid r.va == s.grainAt asid va

/-- An access of another package that fails at home: the answer, and the record. -/
def State.refuseVisit (s : State) (chip asid va cause kind : Nat) (m : FabMsg) : Option State :=
  (s.answer chip m).map fun s => s.logVisit asid va cause kind

/-- An atomic request of another package, as one step (R125, R126, R227, R394): from the old word what the contributions receive, the new
word if one is written, the flags. `reply` makes the answer from the words, a mark, a cause and the flags. -/
def State.visitAtomic (s : State) (chip asid va n : Nat) (step : Nat → List Nat × Option Nat × Word)
    (reply : List Nat → Bool → Nat → Word → FabMsg) : Option State :=
  match s.visit asid va true true with
  | .waits => none
  | .late c => s.refuseVisit chip asid va c 3 (reply [0] true c 0)
  | .go k =>
    if s.grainBusy asid va then none
    else
      let s := (s.sliceFill k asid va).invalidate asid va none
      let old := Memory.getN s.mem k n
      if Marks.read s.memPsn k n ≠ 0 then s.answer chip (reply [old] true 0 0)
      else match step old with
        | (olds, some new, f) => (s.writeAt k asid va n (2 ^ n - 1) new 0).answer chip (reply olds false 0 f)
        | (olds, none, f) => s.answer chip (reply olds false 0 f)

/-- A request of another package at its home slice. None: it waits. -/
def State.serve (s : State) (chip : Nat) (m : FabMsg) : Option State :=
  match m with
  | .read tag asid va size =>
    let n := min 16 size
    match s.visit asid va false false with
    | .waits => none
    | .late c => s.refuseVisit chip asid va c 1 (.reply tag 0 15 c 0)
    | .go k => (s.sliceFill k asid va).answer chip (.reply tag (BitVec.ofNat 128 (Memory.getN s.mem k n)) (BitVec.ofNat 4 (Marks.read s.memPsn k n)) 0 0)
  | .write tag asid va size be data psn =>
    let n := min 16 size
    match s.visit asid va true false with
    | .waits => none
    | .late c => s.refuseVisit chip asid va c 2 (.reply tag 0 15 c 0)
    | .go k => ((s.writeAt k asid va n be.toNat data.toNat psn.toNat).invalidate asid va none).answer chip (.reply tag 0 0 0 0)
  | .atom tag asid va op xs =>
    s.visitAtomic chip asid va 4
      (fun old =>
        let (olds, w, f) := atomApply op (BitVec.ofNat 32 old) xs
        (olds.map BitVec.toNat, some w.toNat, f))
      fun olds bad late f => .atomReply tag (olds.map (BitVec.ofNat 32)) bad late f
  | .cas tag asid va wide cmp new =>
    s.visitAtomic chip asid va (if wide then 8 else 4) (fun old => ([old], if old = cmp.toNat then some new.toNat else none, 0))
      fun olds bad late f => .reply tag (BitVec.ofNat 128 (olds.getD 0 0)) (if bad then 15 else 0) late f
  | .mgmt tag ma (some v) => (s.mgmtWrite ma v).answer chip (.reply tag 0 0 0 0)
  | .mgmt tag ma none =>
    let (v, t) := s.mgmtRead ma
    t.answer chip (.reply tag (BitVec.ofNat 128 v.toNat) 0 0 0)
  | _ => some s

/-- The page that a request waits for is wanted (R115). -/
def State.wantVisit (s : State) (m : FabMsg) : State :=
  match m with
  | .read _ asid va _ | .write _ asid va _ _ _ _ | .atom _ asid va _ _ | .cas _ asid va _ _ _ => s.wantFrame asid va
  | _ => s

/-! ### Answers to this package's requests -/

/-- What an access of an operation asks of another package's home. -/
def remoteAct (o : Op) (j : Nat) (x : Access) : MemAct :=
  match o.kind with
  | .mem act _ _ _ _ => act
  | .cmd (.copy k a) => if atomicWord o k a j x then (match k with
      | .c => if x.part = 1 then .cas else .atom .xchg
      | _ => .atom .add) else if x.write then .store else .load
  | _ => .load

/-- The answer of a load, a store or an ATOMCAS that performed (R117). -/
def State.remoteDone (s : State) (i j : Nat) (o : Op) (x : Access) (data : BitVec 128) (psn : BitVec 4) : State :=
  match o.kind, remoteAct o j x with
  | .mem _ _ _ _ _, .cas => s.atomResult i j data.toNat psn.toNat false
  | _, .store => s.modAcc i j fun a => { a with stage := .done }
  | _, _ => s.modAcc i j fun a => { a with stage := .fetched, data := data, psn := psn }

/-- The answer of an ATOM or RED request: each of its lanes receives its word (R125, R126); on a poisoned word a RED is discarded with a record
on its own die, a bump of CPYX likewise (R394, R406). -/
def State.remoteAtom (s : State) (i j : Nat) (o : Op) (x : Access) (olds : List Word) (bad : Bool) (flags : Word) : State :=
  let ns := atomGroup o j x (remoteAct o j x)
  let word := fun (n : Nat) => (olds.getD n (olds.getD 0 0)).toNat
  let psn := if bad then 15 else 0
  match o.kind with
  | .mem act _ _ _ _ =>
    let red := match act with
      | .red _ => true
      | _ => false
    let s := if red && bad then s.logRed i ns (coreDie o.core) else s
    (ns.zipIdx.foldl (fun s p => s.atomResult i p.1 (word p.2) psn red) s).raiseLater o.warp flags
  | _ =>
    let r : AtomReq := { cluster := 0, asid := 0, va := 0, act := .atom .add, contribs := [{ op := i, acc := j, x := 0 }] }
    let s := if bad then s.logBump r else s
    ns.zipIdx.foldl (fun s p => s.modAcc i p.1 fun a => { a with stage := .fetched, data := BitVec.ofNat 128 (word p.2), psn := BitVec.ofNat 4 psn }) s

/-- A request that failed at its home, or whose answer did not come (R402, R421): all the accesses that it covers. -/
def State.remoteFailed (s : State) (i j : Nat) (o : Op) (x : Access) : State :=
  (atomGroup o j x (remoteAct o j x)).foldl (fun s n => s.failAcc i n o (remoteAct o j x)) s

/-- A HOST record (R411). -/
def State.hostRecord (s : State) (asid addr cause : Nat) (write : Bool) : State :=
  s.logHost (recordWords 9 0 asid 0 0 (addr % 2 ^ 52) (BitVec.ofNat 32 cause) (if write then 2 else 1))

/-- A host access whose pieces have all been answered ends (R331, R411): failed; else done, a read of poisoned data with the poisoned words all
ones and a record of cause 0x15. `va` is the virtual address of its first byte. -/
def State.endHost (s : State) (r : DevReq) (addr : Nat) : State :=
  let n := r.size
  match r.pieces.find? fun p => p.late != 0 with
  | some p =>
    let s := s.hostRecord r.asid addr p.late r.write
    { s with replies := .host (if r.write then [] else List.replicate n 0xFF) false false :: s.replies }
  | none =>
    let bad := !r.write && r.poisoned
    let bytes := r.bytes.zipIdx.map fun p => if r.byteBad (r.addr + p.2) then (0xFF : Byte) else p.1
    let s := if bad then s.hostRecord r.asid addr 0x15 false else s
    { s with replies := .host (if r.write then [] else bytes) true bad :: s.replies }

/-- A request of the device or the host, once all its pieces are answered: a host access ends; what the device asked it reads itself. -/
def State.endDev (s : State) (id : Nat) : State :=
  match s.devReqs[id]? with
  | some r => match r.use with
    | .host addr => if r.done then { s with devReqs := s.devReqs.set id { r with use := .spent } }.endHost r addr else s
    | _ => s
  | none => s

/-- A piece of such a request is answered. -/
def State.devAnswer (s : State) (id j : Nat) (data : BitVec 128) (psn : BitVec 4) (late : Nat) : State :=
  match s.devReqs[id]? with
  | none => s
  | some r => match r.pieces[j]? with
    | none => s
    | some p =>
      if p.back then s
      else
        let fill := fun (p : DevPiece) => { p with data := data, psn := psn, late := late, back := true }
        { s with devReqs := s.devReqs.set id { r with pieces := r.pieces.modify j fill } }.endDev id

/-- A response reaches this package (R321): for an operation, a message, or a request of the device or the host. An answer after the timeout is
ignored. -/
def State.gotReply (s : State) (tag : Nat) (data : BitVec 128) (psn : BitVec 4) (late : Nat) (ok : Nat → Nat → Op → Access → State) : State :=
  let i := tag / 2 ^ 20
  let j := tag % 2 ^ 20
  if spliceOp ≤ i then s.modMsg (i - spliceOp) fun m => if m.stage == .away then { m with stage := .gone } else m
  else if hostOp ≤ i then s.devAnswer (i - hostOp) j data psn late
  else match s.ops[i]? with
    | none => s
    | some o => match o.kind, o.acc[j]? with
      | .amsend _ _ _ _, _ => s.completeOp i
      | _, some x => if x.stage ≠ .remote then s else if late ≠ 0 then s.remoteFailed i j o x else ok i j o x
      | _, none => s

/-- RESPONSE_TIMEOUT (R421): a request to another package without a response for 10 ms ends as R402, with a RESPTMO record. Whether a
store performed there (`performed`) lies outside this package. -/
def execResponseTimeout (op acc : Nat) (_performed : Bool) (s : State) : Out :=
  .next (
    let log := fun (s : State) (chip : Nat) =>
      s.logLink 9 0 (s.routeByte chip % 16) (BitVec.ofNat 32 chip) (BitVec.ofNat 32 s.chip)
    if hostOp ≤ op then
      match (s.devReqs[op - hostOp]?).bind fun r => r.pieces[acc]? with
      | some p => if !p.back ∧ p.sent + 10 * ms ≤ s.now then (log s p.chip).devAnswer (op - hostOp) acc 0 0 0x10 else s
      | none => s
    else match s.ops[op]? with
      | none => s
      | some o => match o.acc[acc]? with
        | some x =>
          if x.stage = .remote ∧ x.stamp + 10 * ms ≤ s.now then
            match s.place x.asid x.va with
            | .foreign chip _ _ => (log s chip).remoteFailed op acc o x
            | _ => s
          else s
        | none => s)

end Sys2Proof.Machine
end

