-- ==== Sys2Proof/Machine/HostAccess.lean ====
section
/-! DEFINITION. Host accesses (R330, R331, R354, R355, R394, R411): the bootstrap aperture, the aperture, the windows. -/

namespace Sys2Proof.Machine

open Sys2Proof

/-- Whether a host adapter's group is up: STATE 2 with PEER = 1. -/
def State.hostUp (s : State) (g : Nat) : Bool := s.groupState g == 2 && (s.reg (lgCtl g)).getLsbD 29

/-- A host access fails (R411): error completion, all ones for a read, a HOST record. -/
def State.failHost (s : State) (a : HostAcc) (asid cause : Nat) : State :=
  let s := s.hostRecord asid a.addr cause a.data.isSome
  { s with replies := .host (if a.data.isSome then [] else List.replicate a.len 0xFF) false false :: s.replies }

/-- The words of a management access through an aperture, one after the other. -/
def State.hostMgmt (s : State) (a : HostAcc) (ma : Nat) : State :=
  if a.len % 4 ≠ 0 ∨ ma % 4 ≠ 0 then s.failHost a 0 1
  else match a.data with
    | some bs =>
      let s := (List.range (a.len / 4)).foldl (fun s i => s.mgmtWrite (ma + 4 * i) (BitVec.ofNat 32 (leNat bs (4 * i) 4))) s
      { s with replies := .host [] true false :: s.replies }
    | none =>
      let r := (List.range (a.len / 4)).foldl (fun (r : State × List Byte) i =>
        let (v, t) := r.1.mgmtRead (ma + 4 * i)
        (t, r.2 ++ wordBytes v)) (s, [])
      { r.1 with replies := .host r.2 true false :: r.1.replies }

/-- A management access to slot c of the aperture that is not this package's (R354): where no route leads to a package with that CHIPID[5:0] a
read answers all ones and a write is ignored; else its words go there as requests. The packages of a group share CHIPID[19:6]
(notes/assumptions/20.md). -/
def State.hostSlot (s : State) (a : HostAcc) (c ma : Nat) : State :=
  let chip := s.chip / 64 * 64 + c
  match s.route chip with
  | .waits _ => s
  | .group g =>
    let words := List.range (a.len / 4)
    let word := fun (i : Nat) => a.data.map fun bs => (BitVec.ofNat 32 (leNat bs (4 * i) 4) : Word)
    let t := words.foldl (fun (s' : State) i => s'.send g chip (.mgmt (accTag (hostOp + s.devReqs.length) i) (ma + 4 * i) (word i))) s
    { t with devReqs := t.devReqs ++ [{ use := .host a.addr, addr := ma, write := a.data.isSome, asid := 0
                                        pieces := words.map fun _ => { chip := chip, size := 4, sent := s.now } }] }
  | _ => { s with replies := .host (if a.data.isSome then [] else List.replicate a.len 0xFF) true false :: s.replies }

/-- The words of host window n (R330). -/
def State.window (s : State) (n i : Nat) : Word := s.reg (0x2000 + 32 * n + 4 * i)
def State.hostBase (s : State) (n : Nat) : Nat := (s.window n 3).toNat * 2 ^ 32 + bitsOf (s.window n 2) 16 16 * 2 ^ 16
def State.hostSize (s : State) (n : Nat) : Nat := bitsOf (s.window n 4) 0 24 * 65536

/-- The lowest-numbered enabled window that decodes an address. -/
def State.hostWindow (s : State) (ha : Nat) : Option Nat :=
  (List.range 16).find? fun n => (s.window n 0).getLsbD 31 && decide (s.hostBase n ≤ ha) && decide (ha < s.hostBase n + s.hostSize n)

/-- A host access to virtual addresses of another package (R330): its pieces go there; an unreachable package fails it (R421). -/
def State.hostAway (s : State) (a : HostAcc) (chip asid va : Nat) : State :=
  match s.route chip with
  | .waits _ => s
  | .group g =>
    let id := s.devReqs.length
    let ps := spanPieces va a.len
    let part := fun (p : Nat × Nat) => BitVec.ofNat 128 (leNat ((a.data.getD []).drop (p.1 - va)) 0 p.2)
    let msg := fun (p : Nat × Nat) (j : Nat) => if a.data.isSome
      then FabMsg.write (accTag (hostOp + id) j) asid p.1 p.2 (BitVec.ofNat 16 (2 ^ p.2 - 1)) (part p) 0 else .read (accTag (hostOp + id) j) asid p.1 p.2
    let t := ps.zipIdx.foldl (fun (s : State) p => s.send g chip (msg p.1 p.2)) s
    { t with devReqs := t.devReqs ++ [{ use := .host a.addr, addr := va, write := a.data.isSome, asid := asid
                                        pieces := ps.map fun p => { chip := chip, size := p.2, sent := s.now } }] }
  | _ => s.failHost a asid 0x10

/-- A host access to a virtual address (R330, R331): checked here for this package's pages, at its target for another package's. -/
def State.hostVa (s : State) (a : HostAcc) (chip asid va : Nat) : State :=
  if 2 ^ 52 < va + a.len then s.failHost a asid 0x14
  else if chip ≠ s.chip then s.hostAway a chip asid va
  else match s.spanCheck asid va a.len a.data.isSome false with
    | some (p, .miss) => s.wantFrame asid p
    | some (_, .fail c) => s.failHost a asid c
    | _ =>
      let t := s.devAsk (.host a.addr) asid va a.len (a.data.map fun bs => (List.range a.len).map fun i => bs.getD i 0)
      (if a.data.isSome then t.dropSpan asid va a.len else t).endDev s.devReqs.length

/-- HOST_ACCESS (R330, R331, R354, R355, R411): until MGAP is enabled the bootstrap aperture of a bridge answers alone, on its fused host group
only; then the aperture, then the windows. -/
def execHostAccess (a : HostAcc) (s : State) : Out :=
  .next (
    let boot := s.aperture && s.hostGroup.isSome
    let mgap := (s.reg 0x0084).toNat * 2 ^ 32 + bitsOf (s.reg 0x0080) 31 1 * 2 ^ 31
    if !s.up || !s.hostUp a.group || a.len == 0 then s
    else if boot then (if s.hostGroup = some a.group.val ∧ a.addr + a.len ≤ 2 ^ 25 then s.hostMgmt a a.addr else s)
    else if (s.reg 0x0080).getLsbD 0 && decide (mgap ≤ a.addr) && decide (a.addr < mgap + 2 ^ 31) then
      let c := (a.addr - mgap) / 2 ^ 25
      let ma := (a.addr - mgap) % 2 ^ 25
      if a.len % 4 ≠ 0 ∨ ma % 4 ≠ 0 then s.failHost a 0 1
      else if c = s.chip % 64 then s.hostMgmt a ma
      else s.hostSlot a c ma
    else match s.hostWindow a.addr with
      | none => s.failHost a 0 1
      | some n =>
        let off := a.addr - s.hostBase n
        if s.hostSize n < off + a.len then s.failHost a (bitsOf (s.window n 0) 18 13) 1
        else s.hostVa a (bitsOf (s.window n 1) 0 20) (bitsOf (s.window n 0) 18 13)
          (bitsOf (s.window n 6) 0 20 * 2 ^ 32 + bitsOf (s.window n 5) 16 16 * 2 ^ 16 + off))

end Sys2Proof.Machine
end

