-- ==== Sys2Proof/Machine/Fabric.lean ====
section
/-! DEFINITION. FLIT_RECEIVE (R319 to R328, R419 to R421): flits arrive on a fibre group; a message whose last flit is there is delivered,
forwarded, retransmitted or discarded. -/

namespace Sys2Proof.Machine

open Sys2Proof

/-- The fields of a flit header (R319). -/
def flClass (h : BitVec 64) : Nat := field h.toNat 60 4
def flDst (h : BitVec 64) : Nat := field h.toNat 40 20
def flSrc (h : BitVec 64) : Nat := field h.toNat 20 20
def flNfm1 (h : BitVec 64) : Nat := field h.toNat 16 4
def flSeq (h : BitVec 64) : Nat := field h.toNat 12 4

/-- A flit that fails its CRC is sent again by the peer; the sixteenth failure in a row retrains the group (R419). -/
def State.badCrc (s : State) (g : Nat) : State :=
  let n := ((s.crcFails.find? fun x => x.1 == g).map Prod.snd).getD 0 + 1
  let rest := s.crcFails.filter fun x => x.1 != g
  if n < 16 then { s with crcFails := (g, n) :: rest } else { s with crcFails := rest }.retrainGroup g 2

/-! ### Flits of a message (R319, R420) -/

/-- Of a group and a class the message that has begun; flits of two messages of one class do not interleave (R319). -/
def State.flitOf (s : State) (g c : Nat) : Option FlitIn := s.flitIn.find? fun f => f.group == g && f.cls == c

/-- A flit that belongs to it, or that begins one. -/
def State.flitFits (s : State) (g : Nat) (h : BitVec 64) : Bool :=
  decide (flSeq h ≤ flNfm1 h) && (match s.flitOf g (flClass h) with
  | none => flSeq h == 0
  | some f => f.dst == flDst h && f.src == flSrc h && f.nfm1 == flNfm1 h && f.next == flSeq h)

/-- What has arrived of a message after this flit; nothing is left to keep after the last. -/
def State.keepFlit (s : State) (g : Nat) (h : BitVec 64) (drop : Bool) : State :=
  let c := flClass h
  let rest := s.flitIn.filter fun f => !(f.group == g && f.cls == c)
  { s with flitIn := if flSeq h = flNfm1 h then rest
      else { group := g, cls := c, dst := flDst h, src := flSrc h, nfm1 := flNfm1 h, next := flSeq h + 1, drop := drop } :: rest }

/-- A time-class message (R317, R318, R420): without TIMEEN it is discarded in silence. -/
def State.gotTime (s : State) (g : Fin 16) (m : FabMsg) : State :=
  match m with
  | .time p => match execPtpMessage g p.toPtpHead p.kind s with
    | .next t => t
    | _ => s
  | _ => s

/-! ### Delivery -/

/-- A splice's references as members: this package's own operations, or another's, with the splice's scope (R142, R327). -/
def State.refMembers (s : State) (refs : List (Nat × Nat)) (sc : Scope) : List Member :=
  refs.map fun r => { op := r.2, chip := if r.1 = s.chip then none else some r.1, via := some sc }

/-- A splice or an active message of another package enters the fabric of this one (R321, R326). -/
def State.enterMsg (s : State) (m : Msg) : State := { s with msgs := s.msgs ++ [{ m with stage := .sent, sentAt := s.sends }], sends := s.sends + 1 }

/-- One message of a splice arrives: the first enters the fabric; the others of a split splice join it (R327). -/
def State.gotSplice (s : State) (x : Msg) (set : List Member) (id parts : Nat) : State :=
  match s.msgs.findIdx? fun m => m.chip == x.chip && m.op == some id && m.parts != 0 && !m.body.isActive with
  | some j => s.modMsg j fun m => { m with parts := m.parts - 1, body := match m.body with
      | .splice old tag => .splice (joinSets old set) tag
      | b => b }
  | none => s.enterMsg { x with op := some id, parts := parts - 1 }

/-- A completion notice of another package (R142, R327): it is for every die that holds the reference and can be reached; an operation performed
at sys scope leaves the sets; packages that hold a reference by a splice from here are told in turn. None: a link on the way retrains. -/
def State.gotNotice (s : State) (chip op : Nat) (sc : Scope) : Option State :=
  let ds := (List.range 4).filter fun d => !(s.die d).isolated
  if ds.any (s.linkHeld 4) then none
  else
    let s := { s with notices := ds.foldl (fun ns d =>
      let n : Nat × Option Nat × Nat × Nat := (d, some chip, op, sc.code)
      if ns.contains n then ns else n :: ns) s.notices }
    let s := if sc = .sys then s.leaveSets (some chip) op else s
    some ((s.spliceChips (some chip) op).foldl (fun s c => s.notifyChip chip op sc c) s)

/-- Flits that the peer acknowledges, the oldest of the group first (R415). -/
def ackFlits (g : Nat) : Nat → List OutMsg → List OutMsg
  | _, [] => []
  | 0, ms => ms
  | n, m :: ms =>
    if m.group = g then { m with left := m.left - n } :: ackFlits g (n - m.left) ms else m :: ackFlits g n ms

/-- A message for this package is delivered. None: it waits in the fabric. -/
def State.deliver (s : State) (g chip : Nat) (m : FabMsg) : Option State :=
  match m with
  | .read .. | .write .. | .atom .. | .cas .. | .mgmt .. => s.serve chip m
  | .reply tag data psn late flags => some (s.gotReply tag data psn late fun i j o x => (s.remoteDone i j o x data psn).raiseLater o.warp flags)
  | .atomReply tag olds bad late flags =>
    some (s.gotReply tag (BitVec.ofNat 128 (olds.getD 0 0).toNat) (if bad then 15 else 0) late fun i j o x => s.remoteAtom i j o x olds bad flags)
  | .notice op sc => s.gotNotice chip op sc
  | .active asid tgt hi sc h pay snd sg op =>
    some (s.enterMsg { body := .active h pay snd sg, op := some op, warp := none, chip := some chip, asid := asid, die := tgtDie tgt
                       tgt := tgt, tgthi := hi, sc := sc })
  | .splice asid tgt hi sc refs id _ parts =>
    let set := s.refMembers refs sc
    some (s.gotSplice { body := .splice set (BitVec.ofNat 8 (tgtTag hi)), op := none, warp := none, chip := some chip
                        asid := asid, die := tgtDie tgt, tgt := tgt, tgthi := hi, sc := sc } set id parts)
  | .peer write ma data => some (s.servePeer g write ma data)
  | .peerAnswer ok data => some (s.endPeer (if ok then some data else none))
  | .control n => some { s with outbox := (ackFlits g n s.outbox.reverse).reverse }
  | .time _ => some s

/-- A message for another package is forwarded without decoding its payload, its SCHIP kept; unreachable, it is discarded with a DROP record, a
completion notice waits (R324, R421). None: it waits. -/
def State.forward (s : State) (g : Nat) (h : BitVec 64) (m : FabMsg) : Option State :=
  match s.route (flDst h), m with
  | .group out, _ => some (s.sendAs out (flDst h) (flSrc h) (flNfm1 h + 1) m)
  | .waits _, _ | _, .notice _ _ => none
  | _, _ => some (s.logDrop 3 g h)

/-- FLIT_RECEIVE (R319, R420): one flit; the message is acted on with its last one. A reserved class, and the time class on AFL-2, is discarded with
the rest of its message and one record. Classes 4 and 5 are not forwarded. -/
def execFlitReceive (group : Fin 16) (header : BitVec 64) (crcOk : Bool) (body : FabMsg) (s : State) : Out :=
  .next (
    let c := flClass header
    if s.groupState group ≠ 2 then s
    else if !crcOk then s.badCrc group
    else
      let ok := { s with crcFails := s.crcFails.filter fun x => x.1 != group.val }
      let dropped := ((s.flitOf group c).map FlitIn.drop).getD false
      let afl2 := c == 4 && !(s.reg (lgStat group)).getLsbD 29
      if !s.flitFits group header then s
      else if dropped then ok.keepFlit group header true
      else if 6 ≤ c then (ok.logDrop 1 group header).keepFlit group header true
      else if afl2 then (ok.logDrop 2 group header).keepFlit group header true
      else if flSeq header ≠ flNfm1 header then ok.keepFlit group header false
      else
        let all := ok.keepFlit group header false
        if c ≠ msgClass body then s
        else if c = 4 then all.gotTime group body
        else if c = 5 ∨ flDst header = s.chip then (all.deliver group (flSrc header) body).getD (s.wantVisit body)
        else (all.forward group header body).getD s)

end Sys2Proof.Machine
end

