-- ==== Sys2Proof/Machine/Ecc.lean ====
section
/-! DEFINITION. Errors of storage arrays (R392, R393, R396, R397): corrected ones, uncorrectable ones in data, inside an engine and in
metadata; the write-back of a sector to HBM. They come from the agenda (notes/assumptions/2.md). -/

namespace Sys2Proof.Machine

open Sys2Proof

/-- A correctable error is corrected and counted (R392, R398). -/
def State.corrected (s : State) (d : Nat) : State := if d < 4 then s.setReg (maDie d 0x90) (satInc (s.reg (maDie d 0x90))) else s

/-- An UNCORR record (R400): place, address, unit code, poisoned words of the line. -/
def State.logUncorr (s : State) (d asid seq : Nat) (place : Word) (addr unit mask : Nat) : State :=
  s.logMem d (recordWords 1 0 asid seq place addr (BitVec.ofNat 32 unit) (BitVec.ofNat 32 mask))

/-- An UNCORR record about a workgroup's own storage. -/
def State.logWg (s : State) (wi unit mask : Nat) : State :=
  match s.wgs[wi]? with
  | none => s
  | some g => s.logUncorr (coreDie g.core) (((s.grids[g.grid]?).map Grid.asid).getD 0) g.seq (whereWord g.core 0 0) 0 unit mask

/-- The mask of one word in its 128-byte line. -/
def wordBit (k : Nat) : Nat := 2 ^ (k % 32)

/-- The WHERE word of a die's own memory (R385, R399). -/
def dieWord (d : Nat) : Word := BitVec.ofNat 32 (d % 4 * 2 ^ 20)

/-- A home slice writes sector `sector` of its line i back to the HBM: one poisoned word poisons it all (R393). -/
def State.writeBack (s : State) (i sector : Nat) : State :=
  match s.slices[i]? with
  | some l => { s with slices := s.slices.set i (s.backSector l sector) }
  | none => s

/-! ### Data (R393)

A poisoned word's bits have no defined value: the agenda gives the bits that the error leaves. -/

/-- A sector of the HBM, under a slice line that holds it or as the home answers. -/
def State.upsetHbm (s : State) (d sector : Nat) (bits : List Word) : State :=
  let k := physKey d (32 * sector)
  let ws := sectorWords k
  let word := fun i => (bits.getD i 0).toNat
  let s := match s.sliceOf k with
    | some l =>
      let at_ := (k - l.key) / 32
      let v := (List.range 8).foldr (fun i n => word i + 2 ^ 32 * n) 0
      let put := fun (x : SliceLine) => if x.key != l.key then x else
        { x with under := (x.under &&& ~~~(sectorMask at_)) ||| BitVec.ofNat 1024 (v * 2 ^ (256 * at_))
                 underPsn := x.underPsn ||| BitVec.ofNat 32 (255 * 2 ^ (8 * at_)) }
      { s with slices := s.slices.map put }
    | none => { s with mem := (List.range 8).foldl (fun m i => Memory.setN m (k + 4 * i) 4 (word i)) s.mem, memPsn := ws.foldl Marks.add s.memPsn }
  s.logUncorr d 0 0 (dieWord d) 0 1 ((ws.map wordBit).sum)

/-- A word of a home slice: of the line that holds it. -/
def State.upsetMem (s : State) (d word : Nat) (v : Word) : State :=
  let k := physKey d (4 * word)
  match s.sliceOf k with
  | some l => { s with mem := Memory.setN s.mem k 4 v.toNat, memPsn := Marks.add s.memPsn (k / 4) }.logUncorr d l.asid 0 (dieWord d) (128 * l.line) 2
      (wordBit ((k - l.key) / 4))
  | none => s

/-- A line with a word poisoned, and its bits. -/
def Line.poison (l : Line) (word : Nat) (v : Word) : Line :=
  let put := fun (l : Line) (b : Nat) => l.setByte (4 * (word % 32) + b) (BitVec.ofNat 8 (v.toNat / 256 ^ b))
  let l := (List.range 4).foldl put l
  { l with psn := l.psn ||| BitVec.ofNat 32 (wordBit word) }

def State.upsetL1 (s : State) (k i word : Nat) (v : Word) : State :=
  match (s.core k).l1[i]? with
  | none => s
  | some l => (s.modCore k fun c => { c with l1 := c.l1.modify i fun l => l.poison word v }).logUncorr (coreDie k) l.asid 0 (whereWord k 0 0)
      (128 * l.line) 4 (wordBit word)

def State.upsetCl (s : State) (cl i word : Nat) (v : Word) : State :=
  match (s.cluster cl).cache[i]? with
  | none => s
  | some l => (s.modCluster cl fun c => { c with cache := c.cache.modify i fun l => l.poison word v }).logUncorr (cl / 16) l.asid 0
      (BitVec.ofNat 32 (cl / 16 * 2 ^ 20 + cl % 16 * 2 ^ 16)) (128 * l.line) 3 (wordBit word)

/-- n bits of a datum from bit lo up replaced. -/
def putBits (d : BitVec 128) (lo n v : Nat) : BitVec 128 := BitVec.ofNat 128 (d.toNat - d.toNat / 2 ^ lo % 2 ^ n * 2 ^ lo + v % 2 ^ n * 2 ^ lo)

/-- A store that waits in a write-combining buffer takes the mark of one of its words. -/
def State.upsetWcb (s : State) (i j word : Nat) (v : Word) : State :=
  match s.ops[i]? with
  | none => s
  | some o => match o.acc[j]? with
    | some a =>
      if a.stage = .wcb ∧ word < 4 then
        let hit := fun (a : Access) => { a with data := putBits a.data (32 * word) 32 v.toNat, psn := a.psn ||| BitVec.ofNat 4 (2 ^ word) }
        (s.modAcc i j hit).logUncorr (coreDie o.core) a.asid 0 (whereWord o.core 0 0) a.va 5 (wordBit (a.va / 4 + word))
      else s
    | none => s

def State.upsetScratch (s : State) (wi word : Nat) (v : Word) : State :=
  match (s.wgs[wi]?).bind fun g => s.grids[g.grid]? with
  | some gr =>
    if word < gr.lrec.scr * 16384 then
      let hit := fun (g : Workgroup) => { g with scratch := Memory.setN g.scratch (4 * word) 4 v.toNat, scrPsn := Marks.add g.scrPsn word }
      (s.modWg wi hit).logWg wi 6 (wordBit word)
    else s
  | none => s

def State.upsetTile (s : State) (wi t word : Nat) (v : Word) : State :=
  match (s.wgs[wi]?).bind fun g => g.tiles[t]? with
  | some x =>
    if x.occ then
      let k := word % 2048
      let mark := fun (x : Tile) => { x with bytes := Memory.setN x.bytes (4 * k) 4 v.toNat, psn := Marks.add x.psn k }
      (s.modWg wi fun g => { g with tiles := g.tiles.modify t mark }).logWg wi 8 (wordBit word)
    else s
  | none => s

def State.upsetB (s : State) (wi m word : Nat) (v : Word) : State :=
  match (s.wgs[wi]?).bind fun g => g.bslots[m]? with
  | some x =>
    if x.occ then
      let k := word % 1024
      let mark := fun (x : BSlot) => { x with bytes := Memory.setN x.bytes (4 * k) 4 v.toNat, psn := Marks.add x.psn k }
      (s.modWg wi fun g => { g with bslots := g.bslots.modify m mark }).logWg wi 9 (wordBit word)
    else s
  | none => s

/-- An operand element of a command that runs meets an error inside its engine (R396): by OPND, X and Y of R400. -/
def State.upsetEngine (s : State) (i opnd x y : Nat) : State :=
  match s.ops[i]? with
  | some o => match o.kind, o.status with
    | .cmd (.copy _ _), _ => s
    | .cmd _, .started => s.modOp i fun o => { o with hits := (opnd, x, y) :: o.hits }
    | _, _ => s
  | none => s

/-- The register file (R394): the lane is poisoned, logged, without a trap. -/
def State.upsetReg (s : State) (i r lane : Nat) (v : Word) : State :=
  match s.warps[i]? with
  | some w =>
    if w.status = .running ∧ r < 8 * w.allot ∧ lane < 32 then
      let mark := fun (x : LaneReg) => { x with val := x.val.set lane v, psn := x.psn ||| BitVec.ofNat 32 (2 ^ lane) }
      (s.modWarp i fun w => { w with v := w.v.modify r mark }).logMemWarp w 1 0 7 (BitVec.ofNat 32 (wordBit lane))
    else s
  | none => s

def State.upsetScalar (s : State) (i r : Nat) (v : Word) : State :=
  match s.warps[i]? with
  | some w =>
    if w.status = .running ∧ r < 64 then
      (s.modWarp i fun w => w.setS r v true).logMemWarp w 1 0 7 (BitVec.ofNat 32 (wordBit r))
    else s
  | none => s

def State.upsetCarry (s : State) (i c ch : Nat) (h g : Word) : State :=
  match s.warps[i]? with
  | some w =>
    if w.status = .running ∧ c < 4 ∧ ch < 32 then
      let mark := fun (x : Carry) => { x with h := x.h.set ch h, g := x.g.set ch g, psn := x.psn ||| BitVec.ofNat 32 (2 ^ ch) }
      (s.modWarp i fun w => { w with carry := w.carry.modify c mark }).logMemWarp w 1 0 10 (BitVec.ofNat 32 (wordBit ch))
    else s
  | none => s

/-! ### Metadata (R397) -/

/-- A hardware stack entry: a STACK fault when it is popped. -/
def State.upsetStack (s : State) (i e : Nat) : State :=
  match s.warps[i]? with
  | some w =>
    if w.status = .running ∧ e < w.stack.length then
      let bad := fun (x : StackEntry) => { x with bad := true }
      (s.modWarp i fun w => { w with stack := w.stack.modify e bad }).logMemWarp w 1 0 11 0
    else s
  | none => s

/-- A tag of an L1: the line is dropped; for a dirty line the record carries ASID 0. -/
def State.upsetTagL1 (s : State) (k i : Nat) : State :=
  match (s.core k).l1[i]? with
  | none => s
  | some l => (s.modCore k fun c => { c with l1 := c.l1.eraseIdx i }).logUncorr (coreDie k) (if l.dirty != 0 then 0 else l.asid) 0
      (whereWord k 0 0) 0 11 0

/-- A tag of a cluster cache: stores that stand in the line only are lost with it. -/
def State.upsetTagCl (s : State) (cl i : Nat) : State :=
  match (s.cluster cl).cache[i]? with
  | none => s
  | some l =>
    let inLine := fun (o : Op) (a : Access) =>
      coreCl o.core == cl && a.write && a.space == .global && a.stage == .atCl && a.asid == l.asid && a.va / 128 == l.line && !l.isPriv
    let lost := s.ops.any fun o => o.acc.any (inLine o)
    let drop := fun (o : Op) => { o with acc := o.acc.map fun a => if inLine o a then { a with stage := Stage.done } else a }
    { s.modCluster cl fun c => { c with cache := c.cache.eraseIdx i } with ops := s.ops.map drop }.logUncorr (cl / 16)
      (if lost || l.dirty != 0 then 0 else l.asid) 0 (BitVec.ofNat 32 (cl / 16 * 2 ^ 20 + cl % 16 * 2 ^ 16)) 0 11 0

/-- An access check buffer entry: a miss from now on. -/
def State.upsetAcb (s : State) (k i : Nat) : State :=
  match (s.core k).acb[i]? with
  | none => s
  | some e => (s.modCore k fun c => { c with acb := c.acb.eraseIdx i }).logUncorr (coreDie k) e.asid 0 (whereWord k 0 0) 0 11 0

/-- A tag of a home slice: the line is dropped, and its writes since its last write-back with it. -/
def State.upsetTagSlice (s : State) (i : Nat) : State :=
  match s.slices[i]? with
  | some l => (s.sliceForget l).logUncorr l.die (if l.dirty != 0 then 0 else l.asid) 0 (dieWord l.die) 0 11 0
  | none => s

/-- A remap-filter entry: a miss from now on. -/
def State.upsetRemap (s : State) (i : Nat) : State :=
  match s.remap[i]? with
  | some r => { s with remap := s.remap.eraseIdx i }.logUncorr r.die r.asid 0 (dieWord r.die) r.base 11 0
  | none => s

/-- A tracking entry of a grain: the model invalidates at every possible holder in any case (R119), so the record is what is seen. -/
def State.upsetTracking (s : State) (d asid va : Nat) : State := if d < 4 then s.logUncorr d asid 0 (dieWord d) va 11 0 else s

/-- A key tracking counter of a core's store queue: from now on it holds its members back. -/
def State.upsetCounter (s : State) (k : Nat) : State :=
  if s.corePresent k then ({ s with slowQ := if s.slowQ.contains k then s.slowQ else k :: s.slowQ }).logUncorr (coreDie k) 0 0 (whereWord k 0 0) 0 12 0 else s

/-! ### A first word that is no instruction -/

/-- ILLEGAL_FIRST_WORD (R157, R167, R168): in mode 0 with EMASK = 0 a no-operation of the length that the first word gives; else the
warp is killed, INFO holding the word. -/
def execIllegalFirstWord (w : Word) (s : State) : Out :=
  .next (match s.issuer with
    | none => s
    | some c => s.illegal s.cur c.w c.gr w (4 * frameLen w.toNat))

end Sys2Proof.Machine
end

