-- ==== Sys2Proof/Machine/LaneInt.lean ====
section
/-! DEFINITION. Moves, integer arithmetic, bit fields, selects, compares, predicates, shuffles and votes of the lane set (R202 to
R209). -/

namespace Sys2Proof.Machine

open Sys2Proof

/-- A value without flags. -/
def plain1 (f : Word → Word) (x : Word) : Flagged := (f x, 0)
def plain2 (f : Word → Word → Word) (x y : Word) : Flagged := (f x y, 0)

/-! ### Moves (R202) -/

def execMov (d a : Fin 128) (g : Guard) (s : State) : Out := lane1 (.mov d a g) d a g (plain1 fun x => x) s
def execMovLane (d : Fin 128) (g : Guard) (s : State) : Out :=
  retire (.movLane d g) s fun c => c.w.laneResult d g (fun l => (BitVec.ofNat 32 l, 0)) (fun _ => false)
def execMovScalar (d : Fin 128) (a : Fin 64) (g : Guard) (s : State) : Out :=
  retire (.movScalar d a g) s fun c => c.w.laneResult d g (fun _ => (c.w.sreg a, 0)) (fun _ => c.w.spsn a)
def execMovi (d : Fin 128) (imm : BitVec 11) (s : State) : Out :=
  retire (.movi d imm) s fun c => c.w.laneResult d .always (fun _ => (imm.signExtend 32, 0)) (fun _ => false)
def execMoviLiteral (d : Fin 128) (lit : Word) (s : State) : Out :=
  retire (.moviLiteral d lit) s fun c => c.w.laneResult d .always (fun _ => (lit, 0)) (fun _ => false)

/-! ### Integer arithmetic (R203) -/

def execAdd (d a b : Fin 128) (g : Guard) (s : State) : Out := lane2 (.add d a b g) d a b g (plain2 fun x y => x + y) s
def execSub (d a b : Fin 128) (g : Guard) (s : State) : Out := lane2 (.sub d a b g) d a b g (plain2 fun x y => x - y) s
def execMul (d a b : Fin 128) (g : Guard) (s : State) : Out := lane2 (.mul d a b g) d a b g (plain2 fun x y => x * y) s
def execMulhU (d a b : Fin 128) (g : Guard) (s : State) : Out := lane2 (.mulhU d a b g) d a b g (plain2 mulhUW) s
def execMulhS (d a b : Fin 128) (g : Guard) (s : State) : Out := lane2 (.mulhS d a b g) d a b g (plain2 mulhSW) s
def execMad (d a b : Fin 128) (g : Guard) (s : State) : Out :=
  lane3 (.mad d a b g) d a b g (fun x y z => (x * y + z, 0)) s
def execAnd (d a b : Fin 128) (g : Guard) (s : State) : Out := lane2 (.and d a b g) d a b g (plain2 fun x y => x &&& y) s
def execOr (d a b : Fin 128) (g : Guard) (s : State) : Out := lane2 (.or d a b g) d a b g (plain2 fun x y => x ||| y) s
def execXor (d a b : Fin 128) (g : Guard) (s : State) : Out := lane2 (.xor d a b g) d a b g (plain2 fun x y => x ^^^ y) s
def execNot (d a : Fin 128) (g : Guard) (s : State) : Out := lane1 (.not d a g) d a g (plain1 fun x => ~~~x) s
def execShl (d a b : Fin 128) (g : Guard) (s : State) : Out := lane2 (.shl d a b g) d a b g (plain2 shlW) s
def execShr (d a b : Fin 128) (g : Guard) (s : State) : Out := lane2 (.shr d a b g) d a b g (plain2 shrW) s
def execSra (d a b : Fin 128) (g : Guard) (s : State) : Out := lane2 (.sra d a b g) d a b g (plain2 sraW) s
def execMinU (d a b : Fin 128) (g : Guard) (s : State) : Out := lane2 (.minU d a b g) d a b g (plain2 uminW) s
def execMinS (d a b : Fin 128) (g : Guard) (s : State) : Out := lane2 (.minS d a b g) d a b g (plain2 sminW) s
def execMaxU (d a b : Fin 128) (g : Guard) (s : State) : Out := lane2 (.maxU d a b g) d a b g (plain2 umaxW) s
def execMaxS (d a b : Fin 128) (g : Guard) (s : State) : Out := lane2 (.maxS d a b g) d a b g (plain2 smaxW) s
def execAbs (d a : Fin 128) (g : Guard) (s : State) : Out :=
  lane1 (.abs d a g) d a g (plain1 fun x => if x.msb then -x else x) s
def execNeg (d a : Fin 128) (g : Guard) (s : State) : Out := lane1 (.neg d a g) d a g (plain1 fun x => -x) s
def execClz (d a : Fin 128) (g : Guard) (s : State) : Out :=
  lane1 (.clz d a g) d a g (plain1 fun x => BitVec.ofNat 32 (clz32 x)) s
def execPopc (d a : Fin 128) (g : Guard) (s : State) : Out :=
  lane1 (.popc d a g) d a g (plain1 fun x => BitVec.ofNat 32 (popc32 x)) s

/-! ### Bit fields and selection (R204, R205) -/

/-- Position and length of BFE and BFI. -/
def bfPos (b : Word) : Nat := bitsOf b 0 8
def bfLen (b : Word) : Nat := bitsOf b 8 8

/-- BFE: the field, zero- or sign-extended from its top bit. -/
def bfe (signed : Bool) (a b : Word) : Word :=
  if bfLen b = 0 ∨ 32 ≤ bfPos b then 0
  else
    let n := min (bfLen b) (32 - bfPos b)
    let f := bitsOf a (bfPos b) n
    if signed then word (sext n f) else BitVec.ofNat 32 f

/-- BFI: the low bits of a into v(d) at the position. -/
def bfi (a b d : Word) : Word :=
  if bfLen b = 0 ∨ 32 ≤ bfPos b then d
  else setBits d (bfPos b) (min (bfLen b) (32 - bfPos b)) a.toNat

def execBfeU (d a b : Fin 128) (g : Guard) (s : State) : Out := lane2 (.bfeU d a b g) d a b g (plain2 (bfe false)) s
def execBfeS (d a b : Fin 128) (g : Guard) (s : State) : Out := lane2 (.bfeS d a b g) d a b g (plain2 (bfe true)) s
def execBfi (d a b : Fin 128) (g : Guard) (s : State) : Out :=
  lane3 (.bfi d a b g) d a b g (fun x y z => (bfi x y z, 0)) s
def execSel (d a b : Fin 128) (g : Guard) (q : Fin 4) (s : State) : Out :=
  retire (.sel d a b g q) s fun c =>
    let p := c.w.pred q
    c.w.laneResult d g (fun l => (if p.getLsbD l then c.w.vreg a l else c.w.vreg b l, 0))
      (fun l => c.w.vpsn a l || c.w.vpsn b l)

/-! ### Compares and predicates (R206, R207) -/

/-- The conditions of CMP on keys in the chosen order. -/
def ccHolds (c : Cc) (x y : Int) : Bool :=
  match c with
  | .eq => x == y
  | .ne => x != y
  | .lt => decide (x < y)
  | .le => decide (x ≤ y)
  | .gt => decide (y < x)
  | .ge => decide (y ≤ x)

def execCmpU32 (cc : Cc) (d : Fin 8) (a b : Fin 128) (g : Guard) (s : State) : Out :=
  laneCmp (.cmpU32 cc d a b g) d a b g (fun x y => ccHolds cc x.toNat y.toNat) s
def execCmpS32 (cc : Cc) (d : Fin 8) (a b : Fin 128) (g : Guard) (s : State) : Out :=
  laneCmp (.cmpS32 cc d a b g) d a b g (fun x y => ccHolds cc x.toInt y.toInt) s
def execPand (d a b : Fin 8) (g : Guard) (s : State) : Out :=
  lanePred (.pand d a b g) d g (fun w => w.pred a &&& w.pred b) s
def execPor (d a b : Fin 8) (g : Guard) (s : State) : Out :=
  lanePred (.por d a b g) d g (fun w => w.pred a ||| w.pred b) s
def execPnot (d a : Fin 8) (g : Guard) (s : State) : Out := lanePred (.pnot d a g) d g (fun w => ~~~(w.pred a)) s

/-! ### Shuffles (R208) -/

/-- A shuffle: lane l reads lane `src l x` of v(a), its own when the index lies outside 0 to 31. -/
def shuffle (i : Instr) (d a b : Nat) (g : Guard) (src : Nat → Word → Int) (s : State) : Out :=
  retire i s fun c =>
    let from' := fun (l : Nat) =>
      let j := src l (c.w.vreg b l)
      if j < 0 ∨ 31 < j then l else j.toNat
    c.w.laneResult d g (fun l => (c.w.vreg a (from' l), 0)) (fun l => c.w.vpsn a (from' l) || c.w.vpsn b l)

def execShflIdx (d a b : Fin 128) (g : Guard) (s : State) : Out :=
  shuffle (.shflIdx d a b g) d a b g (fun _ x => (bitsOf x 0 5 : Nat)) s
def execShflUp (d a b : Fin 128) (g : Guard) (s : State) : Out :=
  shuffle (.shflUp d a b g) d a b g (fun l x => (l : Int) - x.toNat) s
def execShflDown (d a b : Fin 128) (g : Guard) (s : State) : Out :=
  shuffle (.shflDown d a b g) d a b g (fun l x => (l : Int) + x.toNat) s
def execShflXor (d a b : Fin 128) (g : Guard) (s : State) : Out :=
  shuffle (.shflXor d a b g) d a b g (fun l x => ((BitVec.ofNat 5 l ^^^ BitVec.ofNat 5 (bitsOf x 0 5)).toNat : Nat)) s

/-! ### Votes (R209) -/

/-- A vote written to p(d) in the acting lanes: A the acting lanes, M those of them in pS. -/
def vote (i : Instr) (d a : Nat) (g : Guard) (f : LaneMask → LaneMask → Bool) (s : State) : Out :=
  retire i s fun c =>
    let m := c.w.acting g
    c.w.setPred d m fun _ => f m (m &&& c.w.pred a)

def execVoteAny (d a : Fin 8) (g : Guard) (s : State) : Out := vote (.voteAny d a g) d a g (fun _ m => m != 0) s
def execVoteAll (d a : Fin 8) (g : Guard) (s : State) : Out := vote (.voteAll d a g) d a g (fun act m => m == act) s
def execVoteBallot (d : Fin 128) (a : Fin 8) (g : Guard) (s : State) : Out :=
  retire (.voteBallot d a g) s fun c =>
    c.w.laneResult d g (fun _ => (c.w.acting g &&& c.w.pred a, 0)) (fun _ => false)
def execVoteEq (d a : Fin 8) (g : Guard) (s : State) : Out :=
  vote (.voteEq d a g) d a g (fun act m => m == 0 || m == act) s

end Sys2Proof.Machine
end

