-- ==== Sys2Proof/Machine/Mapping.lean ====
section
/-! DEFINITION. MAPPING_CHANGE (R118): the four steps of a change of a page's entry. -/

namespace Sys2Proof.Machine

open Sys2Proof

/-- Whether two spans of an ASID share a byte with a page. -/
def spanMeets (base n va len : Nat) : Bool := len != 0 && decide (va < base + n) && decide (base < va + len)

/-- Whether a command or a pool load that has passed its check has bytes of the page still to access (R118 step 2): the data of CPYC, the
table and the targeted bins of CPYX; the lines of a hold or of a read that is to be made. -/
def State.pageAhead (s : State) (asid base n : Nat) : Bool :=
  (s.ops.any fun o => o.status == .started && (match o.kind with
    | .cmd (.copy .c a) => o.acc.any (fun x => x.asid == asid) && spanMeets base n (a.addr + 128) a.len
    | .cmd (.copy .x a) => o.acc.any (fun x => x.asid == asid) && (spanMeets base n a.addr (16 * (a.nb + 1)) ||
        (!o.aux.isEmpty && (List.range (a.nb + 1)).any fun b =>
          o.acc.any (fun x => x.va == a.addr + 16 * b + 12) && spanMeets base n (o.bin b).base ((o.bin b).cap * a.rowb)))
    | _ => false))
    || (s.holds.any fun h => h.isOpen && !h.free && ((s.grids[h.grid]?).map Grid.asid) == some asid && spanMeets base n h.va (128 * h.nlines))
    || (s.jobs.any fun j => !j.read && !j.fills.isEmpty && j.asid == asid && spanMeets base n j.va (128 * j.nlines))

/-- Whether an access of an operation to the page is still on its way (R118 step 2). -/
def State.pageBusy (s : State) (asid base n : Nat) : Bool :=
  (s.ops.any fun o => o.status != .complete && o.acc.any fun a =>
    a.space != .scratch && a.asid == asid && inPage base n a.va && a.stage != .done)
    || (s.atomQ.any fun r => r.asid == asid && inPage base n r.va)
    || s.pageAhead asid base n

/-- MAPPING_CHANGE (R118): the four steps, once the accesses that have passed the check have performed. The FRAME field is the
controller's. -/
def execMappingChange (asid va : Nat) (entry : List Word) (release : Bool) (s : State) : Out :=
  .next (match s.leafTable asid va with
    | none => s
    | some leaf =>
      let old := s.walk asid va
      let w0 := entry.getD 0 0
      let big := w0.getLsbD 27 || (old.map Pte.lg).getD false
      let n := if big then 2 ^ 21 else 2 ^ 16
      let base := va / n * n
      if s.pageBusy asid base n then s
      else
        -- step 1
        let keepA := fun (e : AcbEntry) => !(e.asid == asid && inPage base n (e.page * 2 ^ 16))
        let s := { s with cores := s.cores.map fun (c : Core) => { c with acb := c.acb.filter keepA } }
        -- step 3: dirty private lines go home, cluster caches first, then the L1s' newer bytes
        let on := fun (l : Line) => l.asid == asid && inPage base n (l.line * 128)
        let s := s.clusters.foldl (fun (s : State) (c : Cluster) => (c.cache.filter on).foldl State.writeLineHome s) s
        let s := s.cores.foldl (fun (s : State) (c : Core) => (c.l1.filter on).foldl State.writeLineHome s) s
        let off := fun (l : Line) => !on l
        let s := { s with cores := s.cores.map fun (c : Core) => { c with l1 := c.l1.filter off }
                          clusters := s.clusters.map fun (c : Cluster) => { c with cache := c.cache.filter off }
                          remap := s.remap.filter fun r => !(r.asid == asid && decide (r.base < base + n) && decide (base < r.base + r.size)) }
        -- the home slices' lines of the page, which its tags name, go to the HBM as well
        let s := (s.slices.filter fun l => l.asid == asid && inPage base n (l.line * 128)).foldl State.sliceLeave s
        -- step 4
        let frame := (old.map Pte.frame).getD 0
        let hadFrame := match old with
          | some e => e.v && !e.isAlias && !e.za
          | none => false
        let keep := !w0.getLsbD 24 && !w0.getLsbD 30 && hadFrame && !release
        let key := leaf + 16 * (if big then field va 16 17 / 32 * 32 else field va 16 17)
        let m := Memory.setN s.mem key 4 w0.toNat
        let m := Memory.setN m (key + 4) 4 (setBits (entry.getD 1 0) 0 24 (if keep then frame else 0)).toNat
        let m := Memory.setN m (key + 8) 4 (entry.getD 2 0).toNat
        let m := Memory.setN m (key + 12) 4 (entry.getD 3 0).toNat
        let s := { s with mem := m }
        if release && hadFrame then s.addFrame (homeDie va) (if (old.map Pte.lg).getD false then 1 else 0) frame else s)

end Sys2Proof.Machine
end

