-- ==== Sys2Proof/Machine/Dispatch.lean ====
section
/-! DEFINITION. exec: one arm for each constructor of Instr, a direct call of its meaning. -/

namespace Sys2Proof.Machine

open Sys2Proof

def exec (i : Instr) (s : State) : Host.Outcome State Fault Refusal :=
  match i with
  | .mov d a g => Sys2Proof.Machine.execMov d a g s
  | .movLane d g => Sys2Proof.Machine.execMovLane d g s
  | .movScalar d a g => Sys2Proof.Machine.execMovScalar d a g s
  | .movi d imm => Sys2Proof.Machine.execMovi d imm s
  | .moviLiteral d lit => Sys2Proof.Machine.execMoviLiteral d lit s
  | .add d a b g => Sys2Proof.Machine.execAdd d a b g s
  | .sub d a b g => Sys2Proof.Machine.execSub d a b g s
  | .mul d a b g => Sys2Proof.Machine.execMul d a b g s
  | .mulhU d a b g => Sys2Proof.Machine.execMulhU d a b g s
  | .mulhS d a b g => Sys2Proof.Machine.execMulhS d a b g s
  | .mad d a b g => Sys2Proof.Machine.execMad d a b g s
  | .and d a b g => Sys2Proof.Machine.execAnd d a b g s
  | .or d a b g => Sys2Proof.Machine.execOr d a b g s
  | .xor d a b g => Sys2Proof.Machine.execXor d a b g s
  | .not d a g => Sys2Proof.Machine.execNot d a g s
  | .shl d a b g => Sys2Proof.Machine.execShl d a b g s
  | .shr d a b g => Sys2Proof.Machine.execShr d a b g s
  | .sra d a b g => Sys2Proof.Machine.execSra d a b g s
  | .minU d a b g => Sys2Proof.Machine.execMinU d a b g s
  | .minS d a b g => Sys2Proof.Machine.execMinS d a b g s
  | .maxU d a b g => Sys2Proof.Machine.execMaxU d a b g s
  | .maxS d a b g => Sys2Proof.Machine.execMaxS d a b g s
  | .abs d a g => Sys2Proof.Machine.execAbs d a g s
  | .neg d a g => Sys2Proof.Machine.execNeg d a g s
  | .clz d a g => Sys2Proof.Machine.execClz d a g s
  | .popc d a g => Sys2Proof.Machine.execPopc d a g s
  | .bfeU d a b g => Sys2Proof.Machine.execBfeU d a b g s
  | .bfeS d a b g => Sys2Proof.Machine.execBfeS d a b g s
  | .bfi d a b g => Sys2Proof.Machine.execBfi d a b g s
  | .sel d a b g q => Sys2Proof.Machine.execSel d a b g q s
  | .cmpU32 cc d a b g => Sys2Proof.Machine.execCmpU32 cc d a b g s
  | .cmpS32 cc d a b g => Sys2Proof.Machine.execCmpS32 cc d a b g s
  | .pand d a b g => Sys2Proof.Machine.execPand d a b g s
  | .por d a b g => Sys2Proof.Machine.execPor d a b g s
  | .pnot d a g => Sys2Proof.Machine.execPnot d a g s
  | .shflIdx d a b g => Sys2Proof.Machine.execShflIdx d a b g s
  | .shflUp d a b g => Sys2Proof.Machine.execShflUp d a b g s
  | .shflDown d a b g => Sys2Proof.Machine.execShflDown d a b g s
  | .shflXor d a b g => Sys2Proof.Machine.execShflXor d a b g s
  | .voteAny d a g => Sys2Proof.Machine.execVoteAny d a g s
  | .voteAll d a g => Sys2Proof.Machine.execVoteAll d a g s
  | .voteBallot d a g => Sys2Proof.Machine.execVoteBallot d a g s
  | .voteEq d a g => Sys2Proof.Machine.execVoteEq d a g s
  | .fadd d a b g => Sys2Proof.Machine.execFadd d a b g s
  | .fsub d a b g => Sys2Proof.Machine.execFsub d a b g s
  | .fmul d a b g => Sys2Proof.Machine.execFmul d a b g s
  | .ffma d a b g => Sys2Proof.Machine.execFfma d a b g s
  | .fmin d a b g => Sys2Proof.Machine.execFmin d a b g s
  | .fmax d a b g => Sys2Proof.Machine.execFmax d a b g s
  | .fcmp cc d a b g => Sys2Proof.Machine.execFcmp cc d a b g s
  | .frcp d a g => Sys2Proof.Machine.execFrcp d a g s
  | .frsq d a g => Sys2Proof.Machine.execFrsq d a g s
  | .fsqrt d a g => Sys2Proof.Machine.execFsqrt d a g s
  | .fexp2 d a g => Sys2Proof.Machine.execFexp2 d a g s
  | .flog2 d a g => Sys2Proof.Machine.execFlog2 d a g s
  | .ftanh d a g => Sys2Proof.Machine.execFtanh d a g s
  | .cvt d a e f g m => Sys2Proof.Machine.execCvt d a e f g m s
  | .dot2Bf16 d a b g => Sys2Proof.Machine.execDot2Bf16 d a b g s
  | .dot4Fp8 d a b g => Sys2Proof.Machine.execDot4Fp8 d a b g s
  | .dot8N4o d a b g => Sys2Proof.Machine.execDot8N4o d a b g s
  | .n4pack d a b g => Sys2Proof.Machine.execN4pack d a b g s
  | .n4unp d a g => Sys2Proof.Machine.execN4unp d a g s
  | .sclx d a b g => Sys2Proof.Machine.execSclx d a b g s
  | .ld d m sz sp => Sys2Proof.Machine.execLd d m sz sp s
  | .st d m sz sp => Sys2Proof.Machine.execSt d m sz sp s
  | .lds d m sz sc => Sys2Proof.Machine.execLds d m sz sc s
  | .sts d m sz sc => Sys2Proof.Machine.execSts d m sz sc s
  | .atom d m op sc => Sys2Proof.Machine.execAtom d m op sc s
  | .red d m op sc => Sys2Proof.Machine.execRed d m op sc s
  | .atomcas d m sz sc => Sys2Proof.Machine.execAtomcas d m sz sc s
  | .smov d a => Sys2Proof.Machine.execSmov d a s
  | .sadd d a b => Sys2Proof.Machine.execSadd d a b s
  | .ssub d a b => Sys2Proof.Machine.execSsub d a b s
  | .smul d a b => Sys2Proof.Machine.execSmul d a b s
  | .smulhU d a b => Sys2Proof.Machine.execSmulhU d a b s
  | .smulhS d a b => Sys2Proof.Machine.execSmulhS d a b s
  | .sdivu d a b => Sys2Proof.Machine.execSdivu d a b s
  | .sremu d a b => Sys2Proof.Machine.execSremu d a b s
  | .sand d a b => Sys2Proof.Machine.execSand d a b s
  | .sor d a b => Sys2Proof.Machine.execSor d a b s
  | .sxor d a b => Sys2Proof.Machine.execSxor d a b s
  | .snot d a => Sys2Proof.Machine.execSnot d a s
  | .sshl d a b => Sys2Proof.Machine.execSshl d a b s
  | .sshr d a b => Sys2Proof.Machine.execSshr d a b s
  | .ssra d a b => Sys2Proof.Machine.execSsra d a b s
  | .sminU d a b => Sys2Proof.Machine.execSminU d a b s
  | .sminS d a b => Sys2Proof.Machine.execSminS d a b s
  | .smaxU d a b => Sys2Proof.Machine.execSmaxU d a b s
  | .smaxS d a b => Sys2Proof.Machine.execSmaxS d a b s
  | .sclz d a => Sys2Proof.Machine.execSclz d a s
  | .spopc d a => Sys2Proof.Machine.execSpopc d a s
  | .ssel d a b => Sys2Proof.Machine.execSsel d a b s
  | .slea d a b n => Sys2Proof.Machine.execSlea d a b n s
  | .scmp cc d a b => Sys2Proof.Machine.execScmp cc d a b s
  | .smovi d imm => Sys2Proof.Machine.execSmovi d imm s
  | .smoviLiteral d lit => Sys2Proof.Machine.execSmoviLiteral d lit s
  | .sld d a sz sc off => Sys2Proof.Machine.execSld d a sz sc off s
  | .sst d a sz sc off => Sys2Proof.Machine.execSst d a sz sc off s
  | .srd d n => Sys2Proof.Machine.execSrd d n s
  | .swr a n => Sys2Proof.Machine.execSwr a n s
  | .emrd d => Sys2Proof.Machine.execEmrd d s
  | .emwr a => Sys2Proof.Machine.execEmwr a s
  | .sfmt a => Sys2Proof.Machine.execSfmt a s
  | .sfmtLiteral lit => Sys2Proof.Machine.execSfmtLiteral lit s
  | .sfmtrd d => Sys2Proof.Machine.execSfmtrd d s
  | .bra off => Sys2Proof.Machine.execBra off s
  | .brcNz c off => Sys2Proof.Machine.execBrcNz c off s
  | .brcZ c off => Sys2Proof.Machine.execBrcZ c off s
  | .brany inv p off => Sys2Proof.Machine.execBrany inv p off s
  | .brall inv p off => Sys2Proof.Machine.execBrall inv p off s
  | .call off => Sys2Proof.Machine.execCall off s
  | .split inv p e j => Sys2Proof.Machine.execSplit inv p e j s
  | .ret => Sys2Proof.Machine.execRet s
  | .join => Sys2Proof.Machine.execJoin s
  | .snop => Sys2Proof.Machine.execSnop s
  | .yield => Sys2Proof.Machine.execYield s
  | .exit => Sys2Proof.Machine.execExit s
  | .trap code => Sys2Proof.Machine.execTrap code s
  | .rtt => Sys2Proof.Machine.execRtt s
  | .tfence => Sys2Proof.Machine.execTfence s
  | .temit a b => Sys2Proof.Machine.execTemit a b s
  | .time d => Sys2Proof.Machine.execTime d s
  | .kfork d a => Sys2Proof.Machine.execKfork d a s
  | .kjoin d a b => Sys2Proof.Machine.execKjoin d a b s
  | .krel d => Sys2Proof.Machine.execKrel d s
  | .kwait a sc => Sys2Proof.Machine.execKwait a sc s
  | .kall sc => Sys2Proof.Machine.execKall sc s
  | .ksend a b sc => Sys2Proof.Machine.execKsend a b sc s
  | .krecv d a => Sys2Proof.Machine.execKrecv d a s
  | .krecvTry d a => Sys2Proof.Machine.execKrecvTry d a s
  | .kqry d a => Sys2Proof.Machine.execKqry d a s
  | .ksteal d a sc => Sys2Proof.Machine.execKsteal d a sc s
  | .binit d a => Sys2Proof.Machine.execBinit d a s
  | .barr d a => Sys2Proof.Machine.execBarr d a s
  | .barrLeave d a => Sys2Proof.Machine.execBarrLeave d a s
  | .bwait d a par => Sys2Proof.Machine.execBwait d a par s
  | .bqry d a => Sys2Proof.Machine.execBqry d a s
  | .mcjoin d a b pool => Sys2Proof.Machine.execMcjoin d a b pool s
  | .mcleave d pool => Sys2Proof.Machine.execMcleave d pool s
  | .role d n => Sys2Proof.Machine.execRole d n s
  | .mcld x y pool k c off => Sys2Proof.Machine.execMcld x y pool k c off s
  | .amsend x y h k c => Sys2Proof.Machine.execAmsend x y h k c s
  | .nred x y op k c tmo => Sys2Proof.Machine.execNred x y op k c tmo s
  | .launch x sc k c => Sys2Proof.Machine.execLaunch x sc k c s
  | .tcfg x y k c => Sys2Proof.Machine.execTcfg x y k c s
  | .tlda x y k c pitch => Sys2Proof.Machine.execTlda x y k c pitch s
  | .tldb x y k c pitch => Sys2Proof.Machine.execTldb x y k c pitch s
  | .mma x y z k c mode => Sys2Proof.Machine.execMma x y z k c mode s
  | .tzero x k c => Sys2Proof.Machine.execTzero x k c s
  | .tst x y k c pitch => Sys2Proof.Machine.execTst x y k c pitch s
  | .tcvt x y k c cw => Sys2Proof.Machine.execTcvt x y k c cw s
  | .ascan x y z k c => Sys2Proof.Machine.execAscan x y z k c s
  | .cld x y k c => Sys2Proof.Machine.execCld x y k c s
  | .cst x y k c => Sys2Proof.Machine.execCst x y k c s
  | .cpyLd x y k c off => Sys2Proof.Machine.execCpyLd x y k c off s
  | .cpySt x y k c off => Sys2Proof.Machine.execCpySt x y k c off s
  | .cpysLd x y k c gp => Sys2Proof.Machine.execCpysLd x y k c gp s
  | .cpysSt x y k c gp => Sys2Proof.Machine.execCpysSt x y k c gp s
  | .cpyc x y k c off => Sys2Proof.Machine.execCpyc x y k c off s
  | .cpyg x y k c off => Sys2Proof.Machine.execCpyg x y k c off s
  | .cpyx x y k c off => Sys2Proof.Machine.execCpyx x y k c off s
  | .rinit x y => Sys2Proof.Machine.execRinit x y s
  | .rputAcq x y k => Sys2Proof.Machine.execRputAcq x y k s
  | .rputCmt x y c => Sys2Proof.Machine.execRputCmt x y c s
  | .rgetAcq x y k => Sys2Proof.Machine.execRgetAcq x y k s
  | .rgetRel x y c => Sys2Proof.Machine.execRgetRel x y c s
  | .ringAcquireGrant wg ring consumer => Sys2Proof.Machine.execRingAcquireGrant wg ring consumer s
  | .growGrant wg => Sys2Proof.Machine.execGrowGrant wg s
  | .growFail wg => Sys2Proof.Machine.execGrowFail wg s
  | .operationComplete op => Sys2Proof.Machine.execOperationComplete op s
  | .loadValueFixed op => Sys2Proof.Machine.execLoadValueFixed op s
  | .engineCommandStart op => Sys2Proof.Machine.execEngineCommandStart op s
  | .engineCommandComplete op => Sys2Proof.Machine.execEngineCommandComplete op s
  | .copyCommandComplete op => Sys2Proof.Machine.execCopyCommandComplete op s
  | .frameAllocation asid va => Sys2Proof.Machine.execFrameAllocation asid va s
  | .acbProbeReply core asid va => Sys2Proof.Machine.execAcbProbeReply core asid va s
  | .mappingChange asid va entry release => Sys2Proof.Machine.execMappingChange asid va entry release s
  | .homeRequest op acc => Sys2Proof.Machine.execHomeRequest op acc s
  | .atomicRequest req => Sys2Proof.Machine.execAtomicRequest req s
  | .combineWindowExpiry cluster req => Sys2Proof.Machine.execCombineWindowExpiry cluster req s
  | .wcbIdleDrain core asid line => Sys2Proof.Machine.execWcbIdleDrain core asid line s
  | .responseArrival op acc => Sys2Proof.Machine.execResponseArrival op acc s
  | .responseTimeout op acc performed => Sys2Proof.Machine.execResponseTimeout op acc performed s
  | .stealPromotion op => Sys2Proof.Machine.execStealPromotion op s
  | .messageSend msg => Sys2Proof.Machine.execMessageSend msg s
  | .spliceArrival msg => Sys2Proof.Machine.execSpliceArrival msg s
  | .completionNotice die op sc => Sys2Proof.Machine.execCompletionNotice die op sc s
  | .activeMessageArrival msg => Sys2Proof.Machine.execActiveMessageArrival msg s
  | .handlerWarpStart msg => Sys2Proof.Machine.execHandlerWarpStart msg s
  | .mcldArrival op => Sys2Proof.Machine.execMcldArrival op s
  | .poolHoldTimeout hold => Sys2Proof.Machine.execPoolHoldTimeout hold s
  | .poolRead hold => Sys2Proof.Machine.execPoolRead hold s
  | .poolFillLand op => Sys2Proof.Machine.execPoolFillLand op s
  | .nredContribution op => Sys2Proof.Machine.execNredContribution op s
  | .nredTimeout inst => Sys2Proof.Machine.execNredTimeout inst s
  | .timeReply op => Sys2Proof.Machine.execTimeReply op s
  | .launchEntrySend wg => Sys2Proof.Machine.execLaunchEntrySend wg s
  | .distributorDecision => Sys2Proof.Machine.execDistributorDecision s
  | .launchRecordRead src => Sys2Proof.Machine.execLaunchRecordRead src s
  | .holdPlacement grid => Sys2Proof.Machine.execHoldPlacement grid s
  | .gridRelease grid => Sys2Proof.Machine.execGridRelease grid s
  | .gridCompletionSignal grid => Sys2Proof.Machine.execGridCompletionSignal grid s
  | .workgroupEvict wg => Sys2Proof.Machine.execWorkgroupEvict wg s
  | .workgroupRestore wg => Sys2Proof.Machine.execWorkgroupRestore wg s
  | .watchdogExpiry core => Sys2Proof.Machine.execWatchdogExpiry core s
  | .starvation warp => Sys2Proof.Machine.execStarvation warp s
  | .breakpointHit warp bp => Sys2Proof.Machine.execBreakpointHit warp bp s
  | .stopDump cluster => Sys2Proof.Machine.execStopDump cluster s
  | .stepEnd cluster => Sys2Proof.Machine.execStepEnd cluster s
  | .dbgcmdStop cluster => Sys2Proof.Machine.execDbgcmdStop cluster s
  | .dbgcmdResume cluster => Sys2Proof.Machine.execDbgcmdResume cluster s
  | .dbgcmdResumeLoad cluster => Sys2Proof.Machine.execDbgcmdResumeLoad cluster s
  | .dbgcmdStep cluster => Sys2Proof.Machine.execDbgcmdStep cluster s
  | .traceDrain cluster => Sys2Proof.Machine.execTraceDrain cluster s
  | .stallCountOverflow cluster entry => Sys2Proof.Machine.execStallCountOverflow cluster entry s
  | .flitReceive group header crcOk body => Sys2Proof.Machine.execFlitReceive group header crcOk body s
  | .hostAccess a => Sys2Proof.Machine.execHostAccess a s
  | .ptpMessage group head kind => Sys2Proof.Machine.execPtpMessage group head kind s
  | .timelockLoss => Sys2Proof.Machine.execTimelockLoss s
  | .centreLinkMeasure die counts => Sys2Proof.Machine.execCentreLinkMeasure die counts s
  | .laneFailure link lane => Sys2Proof.Machine.execLaneFailure link lane s
  | .linkRetrainDone link => Sys2Proof.Machine.execLinkRetrainDone link s
  | .frequencySwitch die => Sys2Proof.Machine.execFrequencySwitch die s
  | .fibreGroupLoss group fibre lambda => Sys2Proof.Machine.execFibreGroupLoss group fibre lambda s
  | .linkTrainingDone group => Sys2Proof.Machine.execLinkTrainingDone group s
  | .groupTrainingTimeout group => Sys2Proof.Machine.execGroupTrainingTimeout group s
  | .tokenRegenerate die channel => Sys2Proof.Machine.execTokenRegenerate die channel s
  | .powerControlTick power heaviest => Sys2Proof.Machine.execPowerControlTick power heaviest s
  | .dieClockGate die => Sys2Proof.Machine.execDieClockGate die s
  | .thermalHold die temp => Sys2Proof.Machine.execThermalHold die temp s
  | .thermalTrip die temp => Sys2Proof.Machine.execThermalTrip die temp s
  | .powerGood slot0 slot1 => Sys2Proof.Machine.execPowerGood slot0 slot1 s
  | .bringupComplete f => Sys2Proof.Machine.execBringupComplete f s
  | .firmwareTimeout => Sys2Proof.Machine.execFirmwareTimeout s
  | .mgcmdPreempt v => Sys2Proof.Machine.execMgcmdPreempt v s
  | .mgcmdResume v => Sys2Proof.Machine.execMgcmdResume v s
  | .mgcmdAttest v => Sys2Proof.Machine.execMgcmdAttest v s
  | .mgcmdCommitSvnmin v => Sys2Proof.Machine.execMgcmdCommitSvnmin v s
  | .pxctlGo v => Sys2Proof.Machine.execPxctlGo v s
  | .peerAccess group write ma data => Sys2Proof.Machine.execPeerAccess group write ma data s
  | .peerAccessTimeout => Sys2Proof.Machine.execPeerAccessTimeout s
  | .chipidWrite v => Sys2Proof.Machine.execChipidWrite v s
  | .lqctlWrite q v => Sys2Proof.Machine.execLqctlWrite q v s
  | .lqtailWrite q v => Sys2Proof.Machine.execLqtailWrite q v s
  | .lgctlWrite g v => Sys2Proof.Machine.execLgctlWrite g v s
  | .mgaploWrite v => Sys2Proof.Machine.execMgaploWrite v s
  | .fladdWrite die list v => Sys2Proof.Machine.execFladdWrite die list v s
  | .trctlWrite cluster v => Sys2Proof.Machine.execTrctlWrite cluster v s
  | .trrpWrite cluster v => Sys2Proof.Machine.execTrrpWrite cluster v s
  | .stctlSpillAll cluster v => Sys2Proof.Machine.execStctlSpillAll cluster v s
  | .strpWrite cluster v => Sys2Proof.Machine.execStrpWrite cluster v s
  | .retireWrite v => Sys2Proof.Machine.execRetireWrite v s
  | .ecclrWrite core v => Sys2Proof.Machine.execEcclrWrite core v s
  | .tbloRead => Sys2Proof.Machine.execTbloRead s
  | .stallCounterRead core engine cause => Sys2Proof.Machine.execStallCounterRead core engine cause s
  | .trdropRead cluster => Sys2Proof.Machine.execTrdropRead cluster s
  | .stlostRead cluster => Sys2Proof.Machine.execStlostRead cluster s
  | .ellostRead => Sys2Proof.Machine.execEllostRead s
  | .mellostRead unit => Sys2Proof.Machine.execMellostRead unit s
  | .lllostRead => Sys2Proof.Machine.execLllostRead s
  | .cecntRead die => Sys2Proof.Machine.execCecntRead die s
  | .registerWrite ma v => Sys2Proof.Machine.execRegisterWrite ma v s
  | .illegalFirstWord w => Sys2Proof.Machine.execIllegalFirstWord w s
  | .clusterCacheArrival op acc => Sys2Proof.Machine.execClusterCacheArrival op acc s
  | .stallSample cluster => Sys2Proof.Machine.execStallSample cluster s
  | .peerAccessAnswer ok data => Sys2Proof.Machine.execPeerAccessAnswer ok data s
  | .physicalWindowAccess die off data => Sys2Proof.Machine.execPhysicalWindowAccess die off data s
  | .syncInterval => Sys2Proof.Machine.execSyncInterval s
  | .thermalHoldLeft die temp => Sys2Proof.Machine.execThermalHoldLeft die temp s
  | .wavelengthRecalibration group => Sys2Proof.Machine.execWavelengthRecalibration group s
  | .tlockLapse group => Sys2Proof.Machine.execTlockLapse group s

end Sys2Proof.Machine
end

