-- ==== Sys2Proof/Machine/Issue.lean ====
section
/-! DEFINITION. The issue of a picked warp (R311, R346, R376, R395), one entry of the agenda, and the smallest launched program. Step only
calls what is here. -/

namespace Sys2Proof.Machine

open Sys2Proof

/-- After an issue: where the warp does not wait it has issued (R59, R311, R341, R349). `mapped`: its workgroup's WGMAP packet entered. -/
def State.afterIssue (s : State) (i wi : Nat) (mapped : Bool) : State :=
  let waits := s.trapWaits i
  let s := if mapped || !waits then s.modWg wi fun g => { g with started := true, restored := false } else s
  if waits then s
  else
    let let_ := fun (w : Warp) => if w.yielded.contains i then { w with yielded := w.yielded.filter fun j => j != i } else w
    let done := fun (c : Core) => { c with lastPick := c.lastPick.map fun p => p.map fun q => if q.warp == i then { q with done := true } else q }
    (({ s with warps := s.warps.map let_ }).modWarp i fun w => { w with issued := true, passBp := false, stalledAt := none }).modCore
      (((s.wgs[wi]?).map Workgroup.core).getD 768) done

/-- The trap 0x15 that a poisoned load raises in place of an issue: no instruction issues, and the workgroup's first issue is still to come (R341,
R395). An entry that has to wait is tried again. -/
def State.poisonTrap (s : State) (i op : Nat) (c : Ctx) : State :=
  let t := s.takeTrap i 0x15 (((s.ops[op]?).map Op.pc).getD 0) c.w.pc
  if t.trapWaits i then t else t.modWarp i fun w => { w with psnTrap := none }

/-- The instruction at a warp's PC is fetched and executed; a word that is none is an illegal first word. -/
def State.runWord (s : State) (i : Nat) (c : Ctx) : Out :=
  match s.fetch c.gr.asid c.w.pc with
  | .wait => .next (s.waitFor i .fetch)
  | .fault f => .fault f
  | .got w ins =>
    let mapped := s.mapDue c
    match if mapped then s.enterPacket (coreCl c.g.core) (s.wgMap c.w.wg c.g c.gr.asid) else some s with
    | none => .next (s.waitFor i .trace)
    | some s1 =>
      let s2 := { s1 with cur := i }
      match match ins with
        | some j => exec j s2
        | none => execIllegalFirstWord w s2 with
      | .next t => .next (t.afterIssue i c.w.wg mapped)
      | o => o

/-- The picked warp at the head: a breakpoint may withhold it, a stop does, a poisoned load's trap takes its place. -/
def State.issueHead (s : State) (i : Nat) : Out :=
  let s1 := { s with picked := s.picked.drop 1 }
  match s.ctxAt i with
  | none => .next s1
  | some c =>
    if s.takesHit c then exec (.breakpointHit i (Fin.ofNat 4 ((s.bpAt c).getD 0))) s
    else if !s.debugLets c then .next s1
    else
      let s2 := if (s.bpAt c).isSome then s1.setMissed (coreCl c.g.core) else s1
      match c.w.psnTrap with
      | some op => .next (s2.poisonTrap i op c)
      | none => s2.runWord i c

/-- The picked warp at the head issues; the clk ends with the last one (R342, R343). -/
def State.issueWarp (s : State) (i : Nat) : Out :=
  match s.issueHead i with
  | .next t => .next t.settleClk
  | o => o

/-- Whether the agenda may hold an event: a step of the part that no issue makes. -/
def isEvent (e : Instr) : Bool :=
  match e with
  | .illegalFirstWord _ => false
  | e => !e.isWord

/-- One entry of the agenda happens (notes/assumptions/2.md). -/
def State.act (s : State) (a : Act) : Out :=
  match a with
  | .event e => if isEvent e then exec e s else .next s
  | .clock cl => .next (s.clockCluster cl).settleClk
  | .elapse n adv => .next (s.elapse n adv)
  | .grandmaster yes => .next (s.electMaster yes)
  | .dieTemp d t => .next (s.readTemp d t)
  | .advance op acc => .next (s.advance op acc)
  | .replaceL1 k i => .next (s.replaceL1 k i)
  | .replaceCl cl i => .next (s.replaceCl cl i)
  | .replaceSlice i => .next (s.replaceSlice i)
  | .writeBack i sector => .next (s.writeBack i sector)
  | .correct d => .next (s.corrected d)
  | .upsetHbm d sector v => .next (s.upsetHbm d sector v)
  | .upsetMem d word v => .next (s.upsetMem d word v)
  | .upsetL1 k i word v => .next (s.upsetL1 k i word v)
  | .upsetCl cl i word v => .next (s.upsetCl cl i word v)
  | .upsetWcb op acc word v => .next (s.upsetWcb op acc word v)
  | .upsetScratch wg word v => .next (s.upsetScratch wg word v)
  | .upsetTile wg tile word v => .next (s.upsetTile wg tile word v)
  | .upsetB wg slot word v => .next (s.upsetB wg slot word v)
  | .upsetEngine op opnd x y => .next (s.upsetEngine op opnd x y)
  | .upsetReg warp reg lane v => .next (s.upsetReg warp reg lane v)
  | .upsetScalar warp reg v => .next (s.upsetScalar warp reg v)
  | .upsetCarry warp c ch h g => .next (s.upsetCarry warp c ch h g)
  | .upsetStack warp i => .next (s.upsetStack warp i)
  | .upsetTagL1 k i => .next (s.upsetTagL1 k i)
  | .upsetTagCl cl i => .next (s.upsetTagCl cl i)
  | .upsetTagSlice i => .next (s.upsetTagSlice i)
  | .upsetAcb k i => .next (s.upsetAcb k i)
  | .upsetRemap i => .next (s.upsetRemap i)
  | .upsetTracking d asid va => .next (s.upsetTracking d asid va)
  | .upsetCounter k => .next (s.upsetCounter k)
  | .management ma (some v) => .next (s.mgmtWrite ma v)
  | .management ma none => .next (s.readReply ma)
  | .rom => .next s.romStep

/-- The agenda goes on; with nothing on it nothing changes. -/
def State.stepAgenda (s : State) : Out :=
  match s.agenda with
  | [] => .next s
  | a :: rest => ({ s with agenda := rest }).act a

/-- Whether a copy command's arrival stands next on the agenda while the picked warp at the head is at a BINIT: arrivals of a clk go before its
BINIT (R241). -/
def State.arrivalFirst (s : State) (i : Nat) : Bool :=
  match s.agenda, s.ctxAt i with
  | .event (.copyCommandComplete _) :: _, some c => isBinit (s.fetch c.gr.asid c.w.pc).instr?
  | _, _ => false

/-! ### The smallest launched program -/

/-- The launch record of one workgroup of one general warp: 16 granules, matrix use, one scratchpad and one accumulator share. -/
def oneWarpRecord (entry : PC) : Record :=
  { version := 1, ndesc := 1, gclass := 0, isMatrix := true, legal := false, ndie := 1, ncl := 1, nwg := 1, nwarp := 1, reg := 1, scr := 1
    acc := 1, fmt := 0, privSize := 1024, spillLines := 1, privBase := 0x200000, argPtr := 0, counter := 0, start := 0, gridNo := 0, ngrid := 1
    late := 0, descs := [{ role := .general, cls := 0, allot := 16, count := 1, entry := entry }], handlers := List.replicate 16 0 }

/-- Translation for the 64 KiB page at 0x10000 of ASID 0: the root, level-1 and leaf entries, frame 3 (R114, R356). -/
def codePage (m : Bytes) (table : Nat) : Bytes :=
  let m := Memory.setN m (physKey 0 table) 8 0x10001
  let m := Memory.setN m (physKey 0 0x10000) 8 0x20001
  let m := Memory.setN m (physKey 0 0x20010) 8 (3 * 2 ^ 32 + 0x86000000)
  Memory.setN m (physKey 0 0x20018) 8 0

/-- A launched workgroup of one warp on core 0, its code of 16 bytes at 0x10000, its warp picked. -/
def State.launchOne (s : State) (code : Nat) : State :=
  let r := oneWarpRecord 0x10000
  let s1 := { s with
    grids := s.grids ++ [{ newGrid r 0 0 (.host 0) .released with pools := List.replicate 16 {} }]
    mem := Memory.setN (codePage s.mem s.asidTable) (physKey 0 0x30000) 16 code }
  let s2 := s1.placeWg s.grids.length r 0 0 0 0
  let s3 := s2.modWg s.wgs.length fun g => { g with status := .running }
  { s3 with picked := [s.warps.length] }

end Sys2Proof.Machine
end

