-- ==== Sys2Proof/Machine/Step.lean ====
section
/-! DEFINITION. One step of the package: the warps picked in a clk issue one after the other, then the agenda goes on. -/

namespace Sys2Proof.Machine

open Sys2Proof

/-- One step: the picked warp at the head issues, behind a copy command's arrival where R241 asks for it; with none, the next entry of the agenda
happens; with neither, nothing changes. -/
def step (s : State) : Host.Outcome State Fault Refusal :=
  match s.picked with
  | i :: _ => if s.arrivalFirst i then s.stepAgenda else s.issueWarp i
  | [] => s.stepAgenda

/-- s with a one-warp workgroup launched whose first instruction is the one whose bits are w (notes/assumptions/21.md). -/
def State.withFetchWord (s : State) (nbits w : Nat) : State := s.launchOne (w % 2 ^ nbits % 2 ^ 128)

end Sys2Proof.Machine
end

