-- ==== Sys2Proof/Safety.lean ====
section
/-! DEFINITION. What counts as a safe run, and the invariants that claims are stated with. -/

namespace Sys2Proof.Machine

open Sys2Proof

/-- A step goes on: it answers a next state, neither a fault nor a refusal. -/
def State.Goes (s : State) : Prop := ∃ t, step s = .next t

/-- The home memory keeps the canonical form of sparse bytes: addresses strictly rising, no zero byte listed. -/
def State.MemOk (s : State) : Prop := Memory.wf s.mem = true

/-- The units of the package are all there (R14, R15): 4 compute dies, 64 clusters, 768 cores, 12 in-package links. -/
def State.UnitsOk (s : State) : Prop :=
  s.dies.length = 4 ∧ s.clusters.length = 64 ∧ s.cores.length = 768 ∧ s.links.length = 12

/-- A warp holds its registers (R61): 8 lane registers for each granule of its allotment, 64 scalar registers, 7 predicates,
15 keys, 4 carry registers. -/
def Warp.Shaped (w : Warp) : Prop :=
  w.v.length = 8 * w.allot ∧ w.s.length = 64 ∧ w.p.length = 7 ∧ w.keys.length = 15 ∧ w.carry.length = 4

end Sys2Proof.Machine
end

