-- ==== Sys2Proof/Certificates/Slice0/Obligations.lean ====
section
/-! DEFINITION. The statements for the provers, each a def Obligations.<Name> : Prop, with the words they are said in (namespace
Sys2Proof.Claims). A statement about an instruction word speaks of any state with an issuing warp whose word is legal; a
statement about a step of the package gives the state it leads to, so that everything it does not name is unchanged. -/

namespace Sys2Proof.Claims

open Sys2Proof Sys2Proof.Machine

/-! ### The issuing warp -/

/-- Warp `s.cur` issues in context c, and the word i is legal in it (R167, R376). -/
def Issues (i : Instr) (s : State) (c : Ctx) : Prop := s.issuer = some c ∧ legalAt i c.w c.gr = true

/-- The state in which only the issuing warp differs. -/
def withWarp (s : State) (w : Warp) : State := { s with warps := s.warps.set s.cur w }

/-- The instruction completes, and all that it changes is its warp, which becomes w. -/
def LeavesWarp (i : Instr) (s : State) (w : Warp) : Prop := exec i s = .next (withWarp s w)

/-- The warp as it goes on to the instruction n bytes further (R157). -/
def goesOn (w : Warp) (n : Nat) : Warp := { w with pc := w.pc + BitVec.ofNat 52 n, wait := .none }

/-- Whether lane l acts under a guard (R40, R159): EMASK's bit and the guard's. -/
def acts (w : Warp) (g : Guard) (l : Nat) : Bool :=
  w.emask.getLsbD l && (match g with
    | .always => true
    | .p0 => (w.p.getD 0 0).getLsbD l
    | .p1 => (w.p.getD 1 0).getLsbD l
    | .notP0 => !(w.p.getD 0 0).getLsbD l)

/-- Bit l of predicate q; p7 reads as ones (R61). -/
def predBit (w : Warp) (q l : Nat) : Bool := if q = 7 then true else (w.p.getD q 0).getLsbD l

/-- The word whose bits are given. -/
def bitsWord (f : Nat → Bool) : LaneMask := BitVec.ofFnLE fun l : Fin 32 => f l

/-- The instruction completes; it writes lane register d in the lanes that act, with poison marks, raises flags, advances the PC by
n bytes, and changes nothing else of its warp or of the machine. -/
def WritesLanes (i : Instr) (s : State) (w : Warp) (n d : Nat) (g : Guard) (val : Nat → Word) (psn : Nat → Bool) (flags : Word) : Prop :=
  ∃ v : List LaneReg,
    LeavesWarp i s { goesOn w n with v := v, aflags := w.aflags ||| flags } ∧ v.length = w.v.length ∧
    ∀ r l, l < 32 →
      ({ w with v := v }).vreg r l = (if r = d ∧ acts w g l = true then val l else w.vreg r l) ∧
      ({ w with v := v }).vpsn r l = (if r = d ∧ acts w g l = true then psn l else w.vpsn r l)

/-- The instruction completes; it writes predicate d in the lanes that act, a write to p7 being ignored (R62), advances the PC by 4,
and changes nothing else. -/
def WritesPred (i : Instr) (s : State) (w : Warp) (d : Nat) (g : Guard) (val : Nat → Prop) : Prop :=
  ∃ p : List LaneMask,
    LeavesWarp i s { goesOn w 4 with p := p } ∧ p.length = w.p.length ∧
    ∀ q l, l < 32 → q < 7 →
      ((p.getD q 0).getLsbD l = true ↔ if q = d ∧ acts w g l = true then val l else (w.p.getD q 0).getLsbD l = true)

/-- The instruction completes; it writes scalar register d and its poison mark, advances the PC by n bytes, and changes nothing
else. -/
def WritesScalar (i : Instr) (s : State) (w : Warp) (n d : Nat) (val : Word) (psn : Bool) : Prop :=
  ∃ m : BitVec 64,
    LeavesWarp i s { goesOn w n with s := w.s.set d val, sPsn := m } ∧
    ∀ r, r < 64 → m.getLsbD r = (if r = d then psn else w.sPsn.getLsbD r)

/-! ### Values of the lane set -/

/-- What a lane instruction writes: its bytes, its destination, its guard, and of the issuing warp each lane's value and mark. -/
structure LaneWrite where
  n   : Nat
  d   : Nat
  g   : Guard
  val : Warp → Nat → Word
  psn : Warp → Nat → Bool

/-- A lane's value from v(a). -/
def from1 (d a : Fin 128) (g : Guard) (f : Word → Word) : Option LaneWrite :=
  some { n := 4, d := d, g := g, val := fun w l => f (w.vreg a l), psn := fun w l => w.vpsn a l }

/-- A lane's value from v(a) and v(b). -/
def from2 (d a b : Fin 128) (g : Guard) (f : Word → Word → Word) : Option LaneWrite :=
  some { n := 4, d := d, g := g, val := fun w l => f (w.vreg a l) (w.vreg b l), psn := fun w l => w.vpsn a l || w.vpsn b l }

/-- A lane's value from v(a), v(b) and the old v(d). -/
def from3 (d a b : Fin 128) (g : Guard) (f : Word → Word → Word → Word) : Option LaneWrite :=
  some { n := 4, d := d, g := g, val := fun w l => f (w.vreg a l) (w.vreg b l) (w.vreg d l)
         psn := fun w l => w.vpsn a l || w.vpsn b l || w.vpsn d l }

/-- Leading zero bits of a word. -/
def leadingZeros (x : Word) : Word := BitVec.ofNat 32 (if x.toNat = 0 then 32 else 31 - Nat.log2 x.toNat)

/-- The number of set bits of a word. -/
def bitCount (x : Word) : Word := BitVec.ofNat 32 ((List.range 32).countP fun l => x.getLsbD l)

/-- The moves of R202. -/
def moveOf (i : Instr) : Option LaneWrite :=
  match i with
  | .mov d a g => from1 d a g fun x => x
  | .movLane d g => some { n := 4, d := d, g := g, val := fun _ l => BitVec.ofNat 32 l, psn := fun _ _ => false }
  | .movScalar d a g => some { n := 4, d := d, g := g, val := fun w _ => w.sreg a, psn := fun w _ => w.sPsn.getLsbD a }
  | .movi d imm => some { n := 4, d := d, g := .always, val := fun _ _ => BitVec.ofInt 32 imm.toInt, psn := fun _ _ => false }
  | .moviLiteral d lit => some { n := 8, d := d, g := .always, val := fun _ _ => lit, psn := fun _ _ => false }
  | _ => none

/-- The integer arithmetic of R203: modulo 2^32, high words of the 64-bit products, shifts by amounts of 32 and more, signed and
unsigned orders, counts. -/
def intOf (i : Instr) : Option LaneWrite :=
  match i with
  | .add d a b g => from2 d a b g fun x y => BitVec.ofNat 32 (x.toNat + y.toNat)
  | .sub d a b g => from2 d a b g fun x y => BitVec.ofInt 32 (x.toInt - y.toInt)
  | .mul d a b g => from2 d a b g fun x y => BitVec.ofNat 32 (x.toNat * y.toNat)
  | .mulhU d a b g => from2 d a b g fun x y => BitVec.ofNat 32 (x.toNat * y.toNat / 2 ^ 32)
  | .mulhS d a b g => from2 d a b g fun x y => BitVec.ofInt 32 (x.toInt * y.toInt / 2 ^ 32)
  | .mad d a b g => from3 d a b g fun x y z => BitVec.ofNat 32 (x.toNat * y.toNat + z.toNat)
  | .and d a b g => from2 d a b g fun x y => x &&& y
  | .or d a b g => from2 d a b g fun x y => x ||| y
  | .xor d a b g => from2 d a b g fun x y => x ^^^ y
  | .not d a g => from1 d a g fun x => ~~~x
  | .shl d a b g => from2 d a b g fun x y => BitVec.ofNat 32 (if y.toNat < 32 then x.toNat * 2 ^ y.toNat else 0)
  | .shr d a b g => from2 d a b g fun x y => BitVec.ofNat 32 (if y.toNat < 32 then x.toNat / 2 ^ y.toNat else 0)
  | .sra d a b g => from2 d a b g fun x y => BitVec.ofInt 32 (if y.toNat < 32 then x.toInt / 2 ^ y.toNat else if x.toInt < 0 then -1 else 0)
  | .minU d a b g => from2 d a b g fun x y => BitVec.ofNat 32 (min x.toNat y.toNat)
  | .minS d a b g => from2 d a b g fun x y => BitVec.ofInt 32 (min x.toInt y.toInt)
  | .maxU d a b g => from2 d a b g fun x y => BitVec.ofNat 32 (max x.toNat y.toNat)
  | .maxS d a b g => from2 d a b g fun x y => BitVec.ofInt 32 (max x.toInt y.toInt)
  | .abs d a g => from1 d a g fun x => BitVec.ofNat 32 x.toInt.natAbs
  | .neg d a g => from1 d a g fun x => BitVec.ofInt 32 (-x.toInt)
  | .clz d a g => from1 d a g leadingZeros
  | .popc d a g => from1 d a g bitCount
  | _ => none

/-- Position and length of a bit field (R204): bits 7:0 and 15:8 of v(b), cut off at bit 31. -/
def fieldPos (y : Word) : Nat := y.toNat % 256
def fieldLen (y : Word) : Nat := min (y.toNat / 256 % 256) (32 - fieldPos y)

/-- The source lane of a shuffle (R208): lane j of v(a) where 0 ≤ j ≤ 31, else the own lane. -/
def shuffled (d a b : Fin 128) (g : Guard) (src : Nat → Word → Int) : Option LaneWrite :=
  let lane := fun (w : Warp) (l : Nat) => if 0 ≤ src l (w.vreg b l) ∧ src l (w.vreg b l) ≤ 31 then (src l (w.vreg b l)).toNat else l
  some { n := 4, d := d, g := g, val := fun w l => w.vreg a (lane w l), psn := fun w l => w.vpsn a (lane w l) || w.vpsn b l }

/-- Bit fields, selection, shuffles and the ballot (R204, R205, R208, R209), the fields said bit by bit. -/
def fieldOf (i : Instr) : Option LaneWrite :=
  match i with
  | .bfeU d a b g => from2 d a b g fun x y => bitsWord fun k => decide (k < fieldLen y) && x.getLsbD (fieldPos y + k)
  | .bfeS d a b g => from2 d a b g fun x y => bitsWord fun k =>
      decide (0 < fieldLen y) && x.getLsbD (fieldPos y + min k (fieldLen y - 1))
  | .bfi d a b g => from3 d a b g fun x y z => bitsWord fun k =>
      if fieldPos y ≤ k ∧ k < fieldPos y + fieldLen y then x.getLsbD (k - fieldPos y) else z.getLsbD k
  | .sel d a b g q => some { n := 4, d := d, g := g, val := fun w l => if predBit w q l then w.vreg a l else w.vreg b l
                             psn := fun w l => w.vpsn a l || w.vpsn b l }
  | .shflIdx d a b g => shuffled d a b g fun _ y => (y.toNat % 32 : Nat)
  | .shflUp d a b g => shuffled d a b g fun l y => (l : Int) - y.toNat
  | .shflDown d a b g => shuffled d a b g fun l y => (l : Int) + y.toNat
  | .shflXor d a b g => shuffled d a b g fun l y => ((l ^^^ y.toNat % 32 : Nat) : Int)
  | .voteBallot d a g => some { n := 4, d := d, g := g, val := fun w _ => bitsWord fun l => acts w g l && predBit w a l, psn := fun _ _ => false }
  | _ => none

/-- What an instruction writes into a predicate: destination, guard, each lane's bit. -/
structure PredWrite where
  d   : Nat
  g   : Guard
  val : Warp → Nat → Prop

/-- The conditions of CMP (R206) on numbers. -/
def ccOf (c : Cc) (x y : Int) : Prop :=
  match c with
  | .eq => x = y
  | .ne => x ≠ y
  | .lt => x < y
  | .le => x ≤ y
  | .gt => x > y
  | .ge => x ≥ y

/-- The acting lanes agree on a predicate (R209). -/
def agree (w : Warp) (g : Guard) (q : Nat) : Prop :=
  ∀ l m, l < 32 → m < 32 → acts w g l = true → acts w g m = true → predBit w q l = predBit w q m

/-- Integer compares, predicate logic and votes (R206, R207, R209). -/
def predOf (i : Instr) : Option PredWrite :=
  match i with
  | .cmpU32 c d a b g => some { d := d, g := g, val := fun w l => ccOf c (w.vreg a l).toNat (w.vreg b l).toNat }
  | .cmpS32 c d a b g => some { d := d, g := g, val := fun w l => ccOf c (w.vreg a l).toInt (w.vreg b l).toInt }
  | .pand d a b g => some { d := d, g := g, val := fun w l => predBit w a l = true ∧ predBit w b l = true }
  | .por d a b g => some { d := d, g := g, val := fun w l => predBit w a l = true ∨ predBit w b l = true }
  | .pnot d a g => some { d := d, g := g, val := fun w l => predBit w a l = false }
  | .voteAny d a g => some { d := d, g := g, val := fun w _ => ∃ l, l < 32 ∧ acts w g l = true ∧ predBit w a l = true }
  | .voteAll d a g => some { d := d, g := g, val := fun w _ => ∀ l, l < 32 → acts w g l = true → predBit w a l = true }
  | .voteEq d a g => some { d := d, g := g, val := fun w _ => agree w g a }
  | _ => none

/-! ### Floating point -/

/-- What a floating-point lane instruction writes: destination, guard, each lane's value with its flags, its mark. -/
structure FloatWrite where
  d   : Nat
  g   : Guard
  val : Warp → Nat → Word × Word
  psn : Warp → Nat → Bool

/-- From v(a). -/
def fromF1 (d a : Fin 128) (g : Guard) (f : Word → Word × Word) : Option FloatWrite :=
  some { d := d, g := g, val := fun w l => f (w.vreg a l), psn := fun w l => w.vpsn a l }

/-- From v(a) and v(b). -/
def fromF2 (d a b : Fin 128) (g : Guard) (f : Word → Word → Word × Word) : Option FloatWrite :=
  some { d := d, g := g, val := fun w l => f (w.vreg a l) (w.vreg b l), psn := fun w l => w.vpsn a l || w.vpsn b l }

/-- From v(a), v(b) and the old v(d), with FMT as it stands at issue. -/
def fromF3 (d a b : Fin 128) (g : Guard) (f : BitVec 16 → Word → Word → Word → Word × Word) : Option FloatWrite :=
  some { d := d, g := g, val := fun w l => f w.fmt (w.vreg a l) (w.vreg b l) (w.vreg d l)
         psn := fun w l => w.vpsn a l || w.vpsn b l || w.vpsn d l }

/-- The 32 elements of an N4O block packed by N4PACK (R219): +0 in lanes that do not act. -/
def packElems (w : Warp) (g : Guard) (a : Nat) : List Machine.Num :=
  (List.range 32).map fun l => if acts w g l then f32 (w.vreg a l) else .fin false 0 0

/-- Byte i of the block image in lanes 0 to 4 of v(a) (R218). -/
def imageByte (w : Warp) (a i : Nat) : Nat := (w.vreg a (i / 4)).toNat / 256 ^ (i % 4) % 256

/-- Lane l's word of a block of 18 bytes (R218). -/
def imageWord (bytes : List Nat) (l : Nat) : Word :=
  BitVec.ofNat 32 ((List.range 4).foldr (fun k x => (if 4 * l + k < 18 then bytes.getD (4 * l + k) 0 else 0) + 256 * x) 0)

/-- The floating-point, conversion, dot, scaling and N4O instructions (R210 to R220), by the operations of R85 to R98 that their
descriptions name. -/
def floatOf (i : Instr) : Option FloatWrite :=
  match i with
  | .fadd d a b g => fromF2 d a b g faddW
  | .fsub d a b g => fromF2 d a b g fsubW
  | .fmul d a b g => fromF2 d a b g fmulW
  | .ffma d a b g => fromF3 d a b g fun _ => ffmaW
  | .fmin d a b g => fromF2 d a b g fun x y => (fminW x y, 0)
  | .fmax d a b g => fromF2 d a b g fun x y => (fmaxW x y, 0)
  | .frcp d a g => fromF1 d a g frcpW
  | .frsq d a g => fromF1 d a g frsqW
  | .fsqrt d a g => fromF1 d a g fsqrtW
  | .fexp2 d a g => fromF1 d a g fexp2W
  | .flog2 d a g => fromF1 d a g flog2W
  | .ftanh d a g => fromF1 d a g ftanhW
  | .cvt d a e f g m => some { d := d, g := g, psn := fun w l => w.vpsn a l
                               val := fun w l => cvtDest (w.fmt.toNat / 256 % 16) (w.fmt.getLsbD 15) m (cvtSource f e (w.fmt.getLsbD 15) (w.vreg a l)) }
  | .dot2Bf16 d a b g => fromF3 d a b g fun fmt => dot2 (fmt.getLsbD 15)
  | .dot4Fp8 d a b g => fromF3 d a b g dot4
  | .dot8N4o d a b g => fromF3 d a b g fun _ => dot8
  | .sclx d a b g => fromF2 d a b g sclx
  | .n4pack d a b g => some { d := d, g := g
                              val := fun w l => let r := n4Pack (packElems w g a) ((w.vreg b 0).toNat % 256); (imageWord r.1 l, r.2)
                              psn := fun w _ => w.vpsn b 0 || (List.range 32).any fun l => acts w g l && w.vpsn a l }
  | .n4unp d a g => some { d := d, g := g
                           val := fun w l => let r := n4Decode (imageByte w a); let x := fp32.roundNE (r.1.getD l .nan)
                             (x.1, x.2 ||| if r.2 then 0x10 else 0)
                           psn := fun w _ => (List.range 5).any fun l => w.vpsn a l }
  | _ => none

/-- The flags that the acting lanes raise (R66, R200). -/
def raised (w : Warp) (g : Guard) (f : Nat → Word × Word) : Word :=
  bitsWord fun k => (List.range 32).any fun l => acts w g l && (f l).2.getLsbD k

/-- The five floating-point formats of R85. -/
def formats : List FloatFmt := [fp32, bf16, fp16, e4m3, e5m2]

/-- The magnitude code past the largest finite value: 2^(emax + 1), 512 in E4M3 (R92). -/
def topCode (F : FloatFmt) : Nat := if F.e4m3 then 128 else (2 ^ F.ew - 1) * 2 ^ F.fw

/-- The value of a magnitude code (R85). -/
noncomputable def codeVal (F : FloatFmt) (c : Nat) : ℝ :=
  if c / 2 ^ F.fw = 0 then (c % 2 ^ F.fw : Nat) / 2 ^ F.fw * (2 : ℝ) ^ (1 - F.bias)
  else (1 + (c % 2 ^ F.fw : Nat) / 2 ^ F.fw) * (2 : ℝ) ^ ((c / 2 ^ F.fw : Nat) - F.bias)

/-- The value of a code with its sign; an infinity stands as ±2^(emax + 1). -/
noncomputable def floatVal (F : FloatFmt) (x : Nat) : ℝ :=
  (if x / 2 ^ (F.ew + F.fw) % 2 = 1 then -1 else 1) * codeVal F (x % 2 ^ (F.ew + F.fw))

/-- The code is that of a finite value (R85, R86). -/
def isFinite (F : FloatFmt) (x : Nat) : Prop :=
  if F.e4m3 then x % 256 ≠ 0x80 else x % 2 ^ (F.ew + F.fw) < topCode F

/-- An FP32 code is a NaN (R85). -/
def isNaN32 (x : Word) : Prop := 0x7F800000 < x.toNat % 2 ^ 31

/-- c is the code nearest to x ≥ 0 among 0 to 2^(emax + 1), of two equally near ones the even (R92). -/
def Nearest (F : FloatFmt) (x : ℝ) (c : Nat) : Prop :=
  c ≤ topCode F ∧ ∀ k, k ≤ topCode F →
    |x - codeVal F c| < |x - codeVal F k| ∨ (|x - codeVal F c| = |x - codeVal F k| ∧ (c = k ∨ c % 2 = 0))

/-- A magnitude code with a sign; E4M3 has no −0 (R86). -/
def signedCode (F : FloatFmt) (neg : Bool) (c : Nat) : Nat := if neg ∧ ¬(F.e4m3 = true ∧ c = 0) then 2 ^ (F.ew + F.fw) + c else c

/-- r is RoundNE(x, F) for a finite x ≠ 0, with its flags (R92): NX 0x08, UF 0x04, OF 0x02, SAT 0x20. -/
def Rounds (F : FloatFmt) (neg : Bool) (x : ℝ) (r : Word × Word) : Prop :=
  ∃ c, Nearest F x c ∧
    (c = topCode F → r = if F.e4m3 then (BitVec.ofNat 32 (signedCode F neg (c - 1)), 0x28) else (BitVec.ofNat 32 (signedCode F neg c), 0x0A)) ∧
    (c < topCode F → r.1 = BitVec.ofNat 32 (signedCode F neg c) ∧
      (codeVal F c = x → r.2 = 0) ∧
      (codeVal F c ≠ x → (2 : ℝ) ^ (1 - F.bias) ≤ x → r.2 = 0x08) ∧
      (codeVal F c ≠ x → x < (2 : ℝ) ^ (1 - F.bias) → r.2 = 0x0C))

/-- r is RoundNE of a real number x ≠ 0 of either sign to FP32. -/
def Rounds32 (x : ℝ) (r : Word × Word) : Prop := (0 < x → Rounds fp32 false x r) ∧ (x < 0 → Rounds fp32 true (-x) r)

/-- The real value of an FP32 word. -/
noncomputable def val32 (x : Word) : ℝ := floatVal fp32 x.toNat

/-- An FP32 word is finite. -/
def fin32 (x : Word) : Prop := isFinite fp32 x.toNat

/-- The integer that a real number becomes under a rounding mode (R214). -/
noncomputable def intOfMode (m : Rm) (x : ℝ) : ℤ :=
  match m with
  | .rn => if x - ⌊x⌋ < 1 / 2 ∨ (x - ⌊x⌋ = 1 / 2 ∧ ⌊x⌋ % 2 = 0) then ⌊x⌋ else ⌊x⌋ + 1
  | .rz => if 0 ≤ x then ⌊x⌋ else ⌈x⌉
  | .rd => ⌊x⌋
  | .ru => ⌈x⌉

/-! ### Scalar values -/

/-- What a scalar instruction writes: its bytes, its destination, the value and the poison mark. -/
structure ScalarWrite where
  n   : Nat
  d   : Nat
  val : Warp → Word
  psn : Warp → Bool

/-- From s(a). -/
def sfrom1 (d a : Fin 64) (f : Word → Word) : Option ScalarWrite :=
  some { n := 4, d := d, val := fun w => f (w.sreg a), psn := fun w => w.sPsn.getLsbD a }

/-- From s(a) and s(b). -/
def sfrom2 (d a b : Fin 64) (f : Word → Word → Word) : Option ScalarWrite :=
  some { n := 4, d := d, val := fun w => f (w.sreg a) (w.sreg b), psn := fun w => w.sPsn.getLsbD a || w.sPsn.getLsbD b }

/-- The comparisons of SCMP (R181). -/
def sccOf (c : Scc) (x y : Word) : Bool :=
  match c with
  | .eq => decide (x.toNat = y.toNat)
  | .ne => decide (x.toNat ≠ y.toNat)
  | .ltS => decide (x.toInt < y.toInt)
  | .leS => decide (x.toInt ≤ y.toInt)
  | .gtS => decide (x.toInt > y.toInt)
  | .geS => decide (x.toInt ≥ y.toInt)
  | .ltU => decide (x.toNat < y.toNat)
  | .leU => decide (x.toNat ≤ y.toNat)
  | .gtU => decide (x.toNat > y.toNat)
  | .geU => decide (x.toNat ≥ y.toNat)

/-- The scalar arithmetic and logic of R181. -/
def scalarOf (i : Instr) : Option ScalarWrite :=
  match i with
  | .smov d a => sfrom1 d a fun x => x
  | .sadd d a b => sfrom2 d a b fun x y => BitVec.ofNat 32 (x.toNat + y.toNat)
  | .ssub d a b => sfrom2 d a b fun x y => BitVec.ofInt 32 (x.toInt - y.toInt)
  | .smul d a b => sfrom2 d a b fun x y => BitVec.ofNat 32 (x.toNat * y.toNat)
  | .smulhU d a b => sfrom2 d a b fun x y => BitVec.ofNat 32 (x.toNat * y.toNat / 2 ^ 32)
  | .smulhS d a b => sfrom2 d a b fun x y => BitVec.ofInt 32 (x.toInt * y.toInt / 2 ^ 32)
  | .sdivu d a b => sfrom2 d a b fun x y => if y.toNat = 0 then 0xFFFFFFFF else BitVec.ofNat 32 (x.toNat / y.toNat)
  | .sremu d a b => sfrom2 d a b fun x y => BitVec.ofNat 32 (x.toNat % y.toNat)
  | .sand d a b => sfrom2 d a b fun x y => x &&& y
  | .sor d a b => sfrom2 d a b fun x y => x ||| y
  | .sxor d a b => sfrom2 d a b fun x y => x ^^^ y
  | .snot d a => sfrom1 d a fun x => ~~~x
  | .sshl d a b => sfrom2 d a b fun x y => BitVec.ofNat 32 (if y.toNat < 32 then x.toNat * 2 ^ y.toNat else 0)
  | .sshr d a b => sfrom2 d a b fun x y => BitVec.ofNat 32 (if y.toNat < 32 then x.toNat / 2 ^ y.toNat else 0)
  | .ssra d a b => sfrom2 d a b fun x y => BitVec.ofInt 32 (if y.toNat < 32 then x.toInt / 2 ^ y.toNat else if x.toInt < 0 then -1 else 0)
  | .sminU d a b => sfrom2 d a b fun x y => BitVec.ofNat 32 (min x.toNat y.toNat)
  | .sminS d a b => sfrom2 d a b fun x y => BitVec.ofInt 32 (min x.toInt y.toInt)
  | .smaxU d a b => sfrom2 d a b fun x y => BitVec.ofNat 32 (max x.toNat y.toNat)
  | .smaxS d a b => sfrom2 d a b fun x y => BitVec.ofInt 32 (max x.toInt y.toInt)
  | .sclz d a => sfrom1 d a leadingZeros
  | .spopc d a => sfrom1 d a bitCount
  | .ssel d a b => some { n := 4, d := d, val := fun w => if w.sreg d = 0 then w.sreg b else w.sreg a
                          psn := fun w => w.sPsn.getLsbD a || w.sPsn.getLsbD b || w.sPsn.getLsbD d }
  | .slea d a b n => sfrom2 d a b fun x y => BitVec.ofNat 32 (x.toNat + y.toNat * 2 ^ n.val)
  | .scmp cc d a b => sfrom2 d a b fun x y => if sccOf cc x y then 1 else 0
  | _ => none

/-- Constants, EMRD and SFMTRD (R182, R189, R190), KQRY and BQRY (R68, R73, R233, R243). -/
def readOf (i : Instr) : Option (Nat × Fin 64 × (State → Ctx → Word)) :=
  match i with
  | .smovi d imm => some (4, d, fun _ _ => BitVec.ofInt 32 imm.toInt)
  | .smoviLiteral d lit => some (8, d, fun _ _ => lit)
  | .emrd d => some (4, d, fun _ c => c.w.emask)
  | .sfmtrd d => some (4, d, fun _ c => c.w.fmt.setWidth 32)
  | .kqry d a => some (4, d, fun s c => s.keyStatus (coreDie c.g.core) c.w a)
  | .bqry d a => some (4, d, fun _ c =>
      let b := c.g.bars.getD a {}
      BitVec.ofNat 32 (b.phase * 2 ^ 16 + b.arrived * 2 ^ 8 + b.members))
  | _ => none

/-- What SRD of a number reads (R77, R79, R83); CAPS and DIE_ORIENT as the capability registers hold them. -/
def srdWord (s : State) (c : Ctx) (n : Nat) : Word :=
  let r := c.gr.lrec
  match n with
  | 0x0000 => BitVec.ofNat 32 (if c.w.handler.isSome then r.nwarp else c.w.num)
  | 0x0001 => BitVec.ofNat 32 r.nwarp
  | 0x0002 => BitVec.ofNat 32 c.g.wg
  | 0x0003 => BitVec.ofNat 32 r.nwg
  | 0x0004 => BitVec.ofNat 32 c.g.cl
  | 0x0005 => BitVec.ofNat 32 r.ncl
  | 0x0006 => BitVec.ofNat 32 c.g.die
  | 0x0007 => BitVec.ofNat 32 r.ndie
  | 0x0008 => BitVec.ofNat 32 r.gridNo
  | 0x0009 => BitVec.ofNat 32 r.ngrid
  | 0x000A => 32
  | 0x0010 => c.w.aflags
  | 0x0011 => BitVec.ofNat 32 (c.w.stack.length + c.w.spilled)
  | 0x0012 => BitVec.ofNat 32 c.w.slot
  | 0x0013 => c.w.roleWord
  | 0x0014 => BitVec.ofNat 32 r.privSize
  | 0x0015 => BitVec.ofNat 32 r.spillLines
  | 0x0016 => BitVec.ofNat 32 (r.acc * 2 ^ 16 + r.scr * 2 ^ 8 + r.reg)
  | 0x0018 => BitVec.ofNat 32 (s.core c.g.core).clk
  | 0x0019 => c.w.clkLatch
  | 0x0020 => dieOrient (coreDie c.g.core)
  | 0x0021 => s.capsPkg
  | 0x0022 => (s.die (coreDie c.g.core)).capsDie
  | 0x0023 => (s.die (coreDie c.g.core)).capsCl (coreCl c.g.core % 16)
  | 0x0024 => (s.die (coreDie c.g.core)).sliceLo
  | 0x0025 => (s.die (coreDie c.g.core)).sliceHi
  | 0x0026 => s.capsLink
  | 0x0028 => BitVec.ofNat 32 (c.g.core / 192 + c.g.core / 12 % 16 * 2 ^ 4 + c.g.core % 12 * 2 ^ 8)
  | 0x0030 => BitVec.ofNat 32 c.gr.asid
  | _ => 0

/-- The numbers that R77 assigns. -/
def assignedNumber (n : Nat) : Bool :=
  decide (n ≤ 0xA) || (decide (0x10 ≤ n) && decide (n ≤ 0x16)) || n == 0x18 || n == 0x19 || (decide (0x20 ≤ n) && decide (n ≤ 0x26)) || n == 0x28 || n == 0x30

/-! ### The stack and traps -/

/-- A branch target (R162, R186). -/
def branchTo (pc : PC) (off : BitVec 21) : PC := BitVec.ofInt 52 (pc.toNat + 4 * off.toInt)

/-- Bit l of a condition mask p or !p (R186). -/
def condBit (w : Warp) (inv : Bool) (p l : Nat) : Bool := predBit w p l != inv

/-- The active lanes with a condition (R43). -/
def lanesWith (w : Warp) (inv : Bool) (p : Nat) : LaneMask := bitsWord fun l => w.emask.getLsbD l && condBit w inv p l

/-- The active lanes without it. -/
def lanesWithout (w : Warp) (inv : Bool) (p : Nat) : LaneMask := bitsWord fun l => w.emask.getLsbD l && !condBit w inv p l

/-- A stack entry of this warp's EMASK and FMT (R43). -/
def entryOf (w : Warp) (pc : PC) (mask : LaneMask) (kind : BitVec 4) (cause : BitVec 8) : StackEntry :=
  { pc := pc, mask := mask, fmt := w.fmt.setWidth 32, kind := kind, cause := cause }

/-- n entries fit the stack without a spill (R45). -/
def hasRoom (c : Ctx) (n : Nat) : Prop :=
  c.w.stack.length + n ≤ 32 ∧ c.w.stack.length + c.w.spilled + n ≤ 32 + 8 * c.gr.lrec.spillLines

/-- The place of spilled entry j (R46): its private offset, and the global address of its first word. -/
def spillOffset (c : Ctx) (j : Nat) : Nat := c.gr.lrec.privSize - 4 * (j / 8 + 1)
def spillAt (c : Ctx) (j : Nat) : Nat :=
  c.gr.lrec.privBase + 32 * c.gr.lrec.privSize * privIndex c.w c.g c.gr.lrec + 128 * (spillOffset c j / 4) + 4 * (4 * (j % 8)) + spillOffset c j % 4
def spillInfo (c : Ctx) (j : Nat) : Word := BitVec.ofNat 32 (spillOffset c j)

/-- The words of a spilled entry (R46). -/
def spillWord (e : StackEntry) (k : Nat) : Word :=
  match k with
  | 0 => e.mask
  | 1 => e.fmt
  | 2 => BitVec.ofNat 32 (e.pc.toNat % 2 ^ 32 / 4 * 4)
  | _ => BitVec.ofNat 32 (e.cause.toNat * 2 ^ 24 + e.kind.toNat * 2 ^ 20 + e.pc.toNat / 2 ^ 32)

/-- The entries that a CALL or SPLIT pushes (R43, R187, R188). -/
def pushes (i : Instr) (w : Warp) : Option Nat :=
  match i with
  | .call _ => some 1
  | .split inv p _ _ => some (if lanesWith w inv p ≠ 0 ∧ lanesWithout w inv p ≠ 0 then 2 else 1)
  | _ => none

/-- TRAPAT with n entries left: valid while it lies below SDEPTH (R196). -/
def trapAtWith (w : Warp) (n : Nat) : Option Nat := w.trapAt.filter fun k => k < n

/-- The warp after a pop that leaves `rest` (R43, R64, R196). -/
def popped (w : Warp) (e : StackEntry) (rest : List StackEntry) : Warp :=
  { w with stack := rest, pc := e.pc, emask := e.mask, fmt := e.fmt.setWidth 16 &&& 0xBFFF, wait := .none, trapAt := trapAtWith w rest.length }

/-- Traps are unmasked (R196). -/
def unmasked (w : Warp) : Prop := ∀ n, w.trapAt = some n → w.stack.length + w.spilled ≤ n

/-- The warp after a trap entry (R192): the entry pushed, TRAPAT, s62 and s63 written, PC at handler entry h. -/
def trapped (w : Warp) (h : PC) (cause : Nat) (resume : PC) : Warp :=
  { w with stack := entryOf w resume w.emask 4 (BitVec.ofNat 8 cause) :: w.stack, trapAt := some (w.stack.length + w.spilled)
           s := (w.s.set 62 (BitVec.ofNat 32 w.pc.toNat)).set 63 (BitVec.ofNat 32 cause), sPsn := w.sPsn &&& 0x3FFFFFFFFFFFFFFF
           pc := h, wait := .none }

/-- Handler entry 0 (R178). -/
def handler0 (c : Ctx) : PC := c.gr.lrec.handlers.getD 0 0

/-- A record of the package error log (R384, R385): words 0, 3, 5 and 6 of the newest record. -/
def newestError (s t : State) (kind cause asid : Nat) (pc : PC) (info info2 : Word) : Prop :=
  let n := s.reg 0x3000
  (n - s.reg 0x3004).toNat < 64 →
    t.reg 0x3000 = n + 1 ∧ t.reg (0x4000 + 32 * (n.toNat % 64)) = BitVec.ofNat 32 (kind * 2 ^ 24 + cause * 2 ^ 16 + asid) ∧
    t.reg (0x4000 + 32 * (n.toNat % 64) + 12) = BitVec.ofNat 32 pc.toNat ∧
    t.reg (0x4000 + 32 * (n.toNat % 64) + 20) = info ∧ t.reg (0x4000 + 32 * (n.toNat % 64) + 24) = info2

/-- The issuing warp is killed (R169, R381): it has ended so, its grid holds the sticky error, and the error log has its record. -/
def Kills (i : Instr) (s : State) (c : Ctx) (kind cause : Nat) (info info2 : Word) : Prop :=
  ∃ t, exec i s = .next t ∧ (t.warps[s.cur]?).map Warp.status = some .killed ∧ (t.grids[c.g.grid]?).map Grid.error = some true ∧
    t.mem = s.mem ∧ newestError s t kind cause c.gr.asid c.w.pc info info2

/-! ### Operations and keys -/

/-- Field bits lo up of a word. -/
def bitsAt (w : Word) (lo n : Nat) : Nat := w.toNat / 2 ^ lo % 2 ^ n

/-- The set of a key; k15 is empty (R11). -/
def keySetOf (w : Warp) (k : Nat) : List Member := if k = 15 then [] else (w.keys.getD k {}).set

/-- The keys with one replaced and OPEN (R137); k15 records nothing. -/
def keysWith (w : Warp) (k : Nat) (ms : List Member) : List KeyEntry := if k = 15 then w.keys else w.keys.set k { st := .opened, set := ms }

/-- A key that a produce can add a member to: not CLOSED, below 4,095 members (R133, R140). -/
def canProduce (w : Warp) (k : Nat) : Prop := k = 15 ∨ ((w.keys.getD k {}).st ≠ .closed ∧ (w.keys.getD k {}).set.length < 4095)

/-- The warp with operation i added to key k's set (R133). -/
def produces (w : Warp) (k i : Nat) : Warp :=
  let ms := keySetOf w k
  { w with keys := keysWith w k (if ms.contains { op := i } then ms else ms ++ [{ op := i }]) }

/-- The operation as it enters: its snapshot is the consume key's set before it (R134). -/
def opEntered (s : State) (c : Ctx) (kind : OpKind) (sc : Scope) (cons : Nat) (acc : List Access) : Op :=
  { kind := kind, warp := s.cur, wg := c.w.wg, core := c.g.core, pc := c.w.pc, sc := sc, snap := keySetOf c.w cons, acc := acc }

/-- The instruction completes: operation o enters and joins its produce key, the PC advances by n, and nothing else changes but what a
consume drains and drops (R123, R136) in ops, cores and clusters. `base` is the state with what the instruction changes besides. -/
def EntersAs (i : Instr) (s base : State) (c : Ctx) (n : Nat) (o : Op) (prod cons : Nat) : Prop :=
  ∃ t, exec i s = .next t ∧ t.ops.length = s.ops.length + 1 ∧ t.ops[s.ops.length]? = some o ∧
    t.warps = s.warps.set s.cur (goesOn (produces c.w prod s.ops.length) n) ∧
    t = { base with ops := t.ops, warps := t.warps, cores := t.cores, clusters := t.clusters } ∧
    (cons = 15 → t.ops = s.ops ++ [o] ∧ t.cores = s.cores ∧ t.clusters = s.clusters)

/-- An operation enters with its snapshot. -/
def Enters (i : Instr) (s base : State) (c : Ctx) (n : Nat) (kind : OpKind) (sc : Scope) (prod cons : Nat) (acc : List Access) : Prop :=
  EntersAs i s base c n (opEntered s c kind sc cons acc) prod cons

/-- The lane memory instructions (R221 to R227): their operands and what they do in a lane. -/
def memOf (i : Instr) : Option (LmArgs × MemForm) :=
  match i with
  | .ld d m sz sp =>
    let size := match sz with
      | .u8 | .s8 => 1
      | .u16 | .s16 => 2
      | .b32 => 4
      | .b64 => 8
      | .b128 => 16
    let signed := sz == .s8 || sz == .s16
    match sp with
    | .global sc => some (m, { act := .load, d := d, size := size, signed := signed, space := .global, sc := sc })
    | .priv => some (m, { act := .load, d := d, size := size, signed := signed, space := .priv, sc := .wg })
  | .st d m sz sp =>
    let size := match sz with
      | .b8 => 1
      | .b16 => 2
      | .b32 => 4
      | .b64 => 8
      | .b128 => 16
    match sp with
    | .global sc => some (m, { act := .store, d := d, size := size, space := .global, sc := sc })
    | .priv => some (m, { act := .store, d := d, size := size, space := .priv, sc := .wg })
  | .lds d m sz sc =>
    let size := match sz with
      | .u8 | .s8 => 1
      | .u16 | .s16 => 2
      | .b32 => 4
      | .b64 => 8
      | .b128 => 16
    some (m, { act := .load, d := d, size := size, signed := sz == .s8 || sz == .s16, space := .scratch, sc := sc })
  | .sts d m sz sc =>
    let size := match sz with
      | .b8 => 1
      | .b16 => 2
      | .b32 => 4
      | .b64 => 8
      | .b128 => 16
    some (m, { act := .store, d := d, size := size, space := .scratch, sc := sc })
  | .atom d m op sc => some (m, { act := .atom op, d := d, size := 4, space := .global, sc := sc })
  | .red d m op sc => some (m, { act := .red op, d := d, size := 4, space := .global, sc := sc })
  | .atomcas d m sz sc =>
    let size := match sz with
      | .b32 => 4
      | .b64 => 8
    some (m, { act := .cas, d := d, size := size, space := .global, sc := sc })
  | _ => none

/-- The literal offset, signed (R222). -/
def offOf (off : Option Word) : Int := (off.map BitVec.toInt).getD 0

/-- The lanes that act, ascending. -/
def actingLanes (w : Warp) (g : Guard) : List Nat := (List.range 32).filter fun l => acts w g l

/-- The bytes of a lane memory instruction: word, MX word, literal. -/
def lmBytes (m : LmArgs) : Nat := if m.off.isSome then 12 else 8

/-- The scalar memory instructions (R183): address register, offset, what they do. -/
def scalarMemOf (i : Instr) : Option (Fin 64 × Option Word × MemForm) :=
  match i with
  | .sld d a sz sc off =>
    let size := match sz with
      | .u8 | .s8 => 1
      | .u16 | .s16 => 2
      | .b32 => 4
      | .b64 => 8
    some (a, off, { act := .load, d := d, size := size, signed := sz == .s8 || sz == .s16, space := .global, sc := sc })
  | .sst d a sz sc off =>
    let size := match sz with
      | .b8 => 1
      | .b16 => 2
      | .b32 => 4
      | .b64 => 8
    some (a, off, { act := .store, d := d, size := size, space := .global, sc := sc })
  | _ => none

/-- The address sum of the scalar unit (R107): the pair s(a), s(a+1) and the offset, modulo 2^64. -/
def scalarAddr (w : Warp) (a : Nat) (off : Option Word) : Nat :=
  (((w.sreg a).toNat + 2 ^ 32 * (w.sreg (a + 1)).toNat + offOf off : Int) % 2 ^ 64).toNat

/-- The one access of SLD or SST: its address, and for SST its data and marks (R183). -/
def scalarAccess (s : State) (c : Ctx) (f : MemForm) (sum : Nat) : Access :=
  let hi := f.size = 8
  { lane := 32, part := 0, space := .global, asid := c.gr.asid, va := sum, size := f.size, write := f.writes
    isAlias := s.onAlias c.gr.asid sum, be := BitVec.ofNat 16 (2 ^ f.size - 1)
    data := if f.writes then BitVec.ofNat 128 ((c.w.sreg f.d).toNat + (if hi then 2 ^ 32 * (c.w.sreg (f.d + 1)).toNat else 0)) else 0
    psn := if f.writes then BitVec.ofNat 4 ((c.w.sPsn.getLsbD f.d).toNat + (if hi then 2 * (c.w.sPsn.getLsbD (f.d + 1)).toNat else 0)) else 0 }

/-- No operation of warp i will still write s62 or s63, which a trap entry writes (R192). -/
def trapWordsFree (s : State) (i : Nat) : Prop := ∀ o ∈ s.ops, o.warp = i → 62 ∉ o.pendingRegs.2 ∧ 63 ∉ o.pendingRegs.2

/-- A trap of warp i enters its handler (R192): the conditions. -/
def canTrapAt (s : State) (i : Nat) (c : Ctx) : Prop := handler0 c ≠ 0 ∧ unmasked c.w ∧ hasRoom c 1 ∧ trapWordsFree s i

/-- The trap of an instruction of the issuing warp enters its handler. -/
def canTrap (s : State) (c : Ctx) : Prop := canTrapAt s s.cur c

/-- A trap entry that cannot be made, with the INFO of its record (R380): no handler, traps masked, beyond the stack's capacity. -/
def cannotTrap (c : Ctx) (info : Word) : Prop :=
  (handler0 c = 0 ∧ info = 0) ∨ (handler0 c ≠ 0 ∧ ¬unmasked c.w ∧ info = 1) ∨
    (handler0 c ≠ 0 ∧ unmasked c.w ∧ 32 + 8 * c.gr.lrec.spillLines < c.w.stack.length + c.w.spilled + 1 ∧ info = 2)

/-- The instruction makes its warp wait with x at its PC, and what it drains aside changes nothing. -/
def Waits (i : Instr) (s : State) (c : Ctx) (x : Wait) : Prop :=
  ∃ t, exec i s = .next t ∧ t.warps = s.warps.set s.cur { c.w with wait := x } ∧ t = { s with warps := t.warps, ops := t.ops }

/-- No global line of another die's memory is in the caches of die d (R120). -/
def noRemoteLines (t : State) (d : Nat) : Prop :=
  (∀ k x, t.cores[k]? = some x → coreDie k = d → ∀ l ∈ x.l1, l.isPriv = true ∨ homeDie (l.line * 128) = d) ∧
  (∀ k x, t.clusters[k]? = some x → k / 16 = d → ∀ l ∈ x.cache, l.isPriv = true ∨ homeDie (l.line * 128) = d)

/-- Every member of a set has performed at a scope, as the issuer's die knows (R135). -/
def allPerformed (s : State) (c : Ctx) (ms : List Member) (sc : Scope) : Prop := ∀ m ∈ ms, s.memberAt (coreDie c.g.core) m sc = true

/-- Matrix and scan commands (R259): produce and consume key, bytes, what the command reads at issue (R261). -/
def matrixOf (i : Instr) : Option (Fin 16 × Fin 16 × Nat × (Warp → Cmd)) :=
  let n := fun (l : Option Word) => if l.isSome then 8 else 4
  let p := fun (l : Option Word) => l.map BitVec.toNat
  match i with
  | .tcfg x y k c => some (k, c, 4, fun w => .tcfg x (w.sreg y))
  | .tlda x y k c l => some (k, c, n l, fun w => .tlda x (w.sreg y).toNat (p l) w.fmt)
  | .tldb x y k c l => some (k, c, n l, fun w => .tldb x (w.sreg y).toNat (p l) w.fmt)
  | .mma x y z k c l => some (k, c, n l, fun w => .mma x z y (l.getD 0) w.fmt)
  | .tzero x k c => some (k, c, 4, fun _ => .tzero x)
  | .tst x y k c l => some (k, c, n l, fun w => .tst x (w.sreg y).toNat (p l))
  | .tcvt x y k c l => some (k, c, n l, fun w => .tcvt x y (l.getD 0x7F) w.fmt)
  | .ascan x y z k c => some (k, c, 4, fun _ => .ascan x y z)
  | .cld x y k c => some (k, c, 4, fun w => .cld x (w.sreg y).toNat)
  | .cst x y k c => some (k, c, 4, fun w => .cst x (w.sreg y).toNat)
  | _ => none

/-- Copy commands (R277): produce and consume key, bytes, kind, address pair, descriptor registers, offset, pitch. -/
def copyOf (i : Instr) : Option (Fin 16 × Fin 16 × Nat × CopyKind × Fin 64 × Fin 64 × Option Word × Word) :=
  let n := fun (l : Option Word) => if l.isSome then 8 else 4
  match i with
  | .cpyLd x y k c off => some (k, c, n off, .ld, x, y, off, 0)
  | .cpySt x y k c off => some (k, c, n off, .st, x, y, off, 0)
  | .cpysLd x y k c gp => some (k, c, 8, .sld, x, y, none, gp)
  | .cpysSt x y k c gp => some (k, c, 8, .sst, x, y, none, gp)
  | .cpyc x y k c off => some (k, c, n off, .c, x, y, off, 0)
  | .cpyg x y k c off => some (k, c, n off, .g, x, y, off, 0)
  | .cpyx x y k c off => some (k, c, n off, .x, x, y, off, 0)
  | _ => none

/-- The descriptor that a copy command reads at issue (R277). -/
def copyArgs (w : Warp) (x y : Nat) (off : Option Word) (gp : Word) : CopyArgs :=
  { addr := scalarAddr w x off, d0 := w.sreg y, d1 := w.sreg (y + 1), d2 := w.sreg (y + 2), d3 := w.sreg (y + 3), gp := gp, dreg := y }

/-- The scope in D3[22:20] (R277); a code that is none leaves the command to be refused. -/
def copyScope (a : CopyArgs) : Scope :=
  match a.d3.toNat / 2 ^ 20 % 8 with
  | 2 => .cl
  | 3 => .die
  | 4 => .pkg
  | 5 => .sys
  | _ => .wg

/-- The warps of a workgroup's barrier after an arrival (R240, R242). -/
def arrived (b b' : Barrier) (ms : List Member) (leave : Bool) : Prop :=
  let leaves := b.leaves + (if leave then 1 else 0)
  (b.arrived + 1 = b.members → b'.members = b.members - leaves ∧ b'.arrived = 0 ∧ b'.phase = (b.phase + 1) % 65536 ∧ b'.leaves = 0 ∧
    b'.cur = [] ∧ ∀ m, m ∈ b'.last ↔ m ∈ b.cur ∨ m ∈ ms) ∧
  (b.arrived + 1 ≠ b.members → b'.members = b.members ∧ b'.arrived = b.arrived + 1 ∧ b'.phase = b.phase ∧ b'.leaves = leaves ∧
    b'.last = b.last ∧ ∀ m, m ∈ b'.cur ↔ m ∈ b.cur ∨ m ∈ ms)


/-- The page word that the core's access check buffer holds for an address (R116). -/
def pageWord (s : State) (c : Ctx) (va : Nat) : Option Word :=
  ((s.core c.g.core).acb.find? fun e => e.covers c.gr.asid va).map AcbEntry.word0

/-- A page allows a read, or a write (R377). -/
def pageAllows (w : Word) (write : Bool) : Prop := w.getLsbD 31 = true ∧ (w.toNat / 2 ^ 28 % 4) ≠ 3 ∧ (write = true → w.getLsbD 26 = true)

/-- The access check of spilled entry j's words fails (R377, R387). -/
def spillFails (s : State) (c : Ctx) (j : Nat) (write : Bool) : Prop :=
  2 ^ 52 < spillAt c j + 16 ∨ ∃ w, spillAt c j + 16 ≤ 2 ^ 52 ∧ pageWord s c (spillAt c j) = some w ∧ ¬pageAllows w write

/-- Spilled entry j as its four words hold it (R46). -/
def spilledEntry (s : State) (c : Ctx) (j : Nat) : StackEntry :=
  let x := fun k => (s.privRead c.g.core c.gr.asid (spillAt c j + 4 * k) 4).1 % 2 ^ 32
  { mask := BitVec.ofNat 32 (x 0), fmt := BitVec.ofNat 32 (x 1), pc := BitVec.ofNat 52 (x 3 % 2 ^ 20 * 2 ^ 32 + x 2 / 4 * 4)
    kind := BitVec.ofNat 4 (x 3 / 2 ^ 20), cause := BitVec.ofNat 8 (x 3 / 2 ^ 24) }

/-- The cause of an access that its page does not allow (R377, R378). -/
def pageCause (f : MemForm) (w : Word) : Option Nat :=
  if w.getLsbD 31 = false ∨ bitsAt w 28 2 = 3 then some 0x10
  else if f.writes = true ∧ w.getLsbD 26 = false then some 0x11
  else if f.atomic = true ∧ w.getLsbD 25 = false then some 0x12
  else none

/-- The cause of an access to a global address that is not made, in the order of R378: none where every check passes or the page is
not in the buffer yet. -/
def globalCause (s : State) (c : Ctx) (f : MemForm) (sum : Nat) : Option Nat :=
  if 2 ^ 52 ≤ sum then some 0x14
  else if sum % f.size ≠ 0 then some 0x13
  else (pageWord s c sum).bind (pageCause f)

/-- The address passes its own checks, and its page has still to be probed (R116). -/
def mustProbe (s : State) (c : Ctx) (f : MemForm) (sum : Nat) : Prop := sum < 2 ^ 52 ∧ sum % f.size = 0 ∧ pageWord s c sum = none

/-- The cause of a scratchpad access that is not made (R222, R378). -/
def scratchCause (c : Ctx) (f : MemForm) (x : Nat) : Option Nat :=
  if c.gr.lrec.scr * 65536 < x + f.size then some 0x14 else if x % f.size ≠ 0 then some 0x13 else none

/-- A lane's global address (R107): the pair v(a), v(a+1) and the offset, modulo 2^64. -/
def laneSumOf (w : Warp) (m : LmArgs) (l : Nat) : Nat :=
  (((w.vreg m.addr l).toNat + 2 ^ 32 * (w.vreg (m.addr + 1) l).toNat + offOf m.off : Int) % 2 ^ 64).toNat

/-- A lane's scratchpad or private offset (R107), modulo 2^32. -/
def laneOffOf (w : Warp) (m : LmArgs) (l : Nat) : Nat := (((w.vreg m.addr l).toNat + offOf m.off : Int) % 2 ^ 32).toNat

/-- The cause of a private access whose offset does not pass (R109, R222). -/
def privCause (c : Ctx) (f : MemForm) (x : Nat) : Option Nat :=
  if c.gr.lrec.privSize < x + f.size then some 0x14 else if x % min f.size 4 ≠ 0 then some 0x13 else none

/-- The words of a lane's private access: one of at most four bytes, else one for each four bytes (R109, R224). -/
def privWords (f : MemForm) : Nat := (f.size + 3) / 4

/-- The global address of word n of lane l's private access at offset x (R109). -/
def privWordVa (c : Ctx) (x l n : Nat) : Nat :=
  c.gr.lrec.privBase + 32 * c.gr.lrec.privSize * privIndex c.w c.g c.gr.lrec + 128 * ((x + 4 * n) / 4) + 4 * l + x % 4

/-- Word n of a private access may be accessed. -/
def privWordOk (s : State) (c : Ctx) (f : MemForm) (x l n : Nat) : Prop :=
  privWordVa c x l n < 2 ^ 52 ∧ ∃ w, pageWord s c (privWordVa c x l n) = some w ∧ pageCause f w = none

/-- A lane's access passes its checks (R378): its address in its form's space, and its page as the access check buffer has it. -/
def laneReady (s : State) (c : Ctx) (f : MemForm) (m : LmArgs) (l : Nat) : Prop :=
  match f.space with
  | .global => globalCause s c f (laneSumOf c.w m l) = none ∧ ¬mustProbe s c f (laneSumOf c.w m l)
  | .scratch => scratchCause c f (laneOffOf c.w m l) = none
  | .priv => privCause c f (laneOffOf c.w m l) = none ∧ ∀ n, n < privWords f → privWordOk s c f (laneOffOf c.w m l) l n

/-- The access of a higher lane h names byte b of lane l's (R111, R146): for global addresses the canonical bytes. -/
def namesByte (s : State) (c : Ctx) (f : MemForm) (m : LmArgs) (h l b : Nat) : Prop :=
  match f.space with
  | .global =>
    let x := s.canon c.gr.asid (laneSumOf c.w m l)
    let y := s.canon c.gr.asid (laneSumOf c.w m h)
    x.1 = y.1 ∧ x.2.1 = y.2.1 ∧ y.2.2 ≤ x.2.2 + b ∧ x.2.2 + b < y.2.2 + f.size
  | .scratch => laneOffOf c.w m h ≤ laneOffOf c.w m l + b ∧ laneOffOf c.w m l + b < laneOffOf c.w m h + f.size
  | .priv => False

/-- The accesses of acting lane l (R107, R109, R111, R146, R221, R222, R224, R227): one, or one for each private word; where they lie, which bytes
a store writes (a byte that a higher acting lane names is that lane's), the words and marks they send. -/
def LaneSends (s : State) (c : Ctx) (f : MemForm) (m : LmArgs) (l : Nat) (acc : List Access) : Prop :=
  acc.length = (if f.space = .priv then privWords f else 1) ∧ ∀ (n : Nat) (a : Access), acc[n]? = some a →
    a.lane = l ∧ a.part = n ∧ a.space = f.space ∧ a.asid = c.gr.asid ∧ a.write = f.writes ∧ a.stage = .held ∧ a.install = true ∧ a.late = false ∧
    a.size = (if f.space = .priv then min f.size 4 else f.size) ∧
    a.va = (match f.space with
      | .global => laneSumOf c.w m l
      | .scratch => laneOffOf c.w m l
      | .priv => privWordVa c (laneOffOf c.w m l) l n) ∧
    (∀ b, b < a.size → (a.be.getLsbD b = true ↔ ¬(f.act = .store ∧ ∃ h ∈ actingLanes c.w m.grd, l < h ∧ namesByte s c f m h l b))) ∧
    (f.writes = true → ∀ k, k < (if f.space = .priv then 1 else f.words) →
      a.data.toNat / 2 ^ (32 * k) % 2 ^ 32 = (c.w.vreg (f.d + n + k) l).toNat ∧ a.psn.getLsbD k = c.w.vpsn (f.d + n + k) l)

/-- Commands in the matrix queue or the copy queue of a core (R260). -/
def queuedOn (s : State) (core : Nat) (copy : Bool) : Nat :=
  s.ops.countP fun o => match o.kind with
    | .cmd (.copy _ _) => copy && o.core == core && (o.status == .issued || o.status == .started)
    | .cmd _ => !copy && o.core == core && (o.status == .issued || o.status == .started)
    | _ => false

/-- A scope code's scope, `dflt` where the code names none. -/
def scopeOr (dflt : Scope) (n : Nat) : Scope :=
  match n with
  | 1 => .wg
  | 2 => .cl
  | 3 => .die
  | 4 => .pkg
  | 5 => .sys
  | _ => dflt

/-- The bytes of an instruction that may carry a literal. -/
def withLit (l : Option Word) : Nat := if l.isSome then 8 else 4

/-- Free granules of a workgroup's register region (R53, R76): what was freed in this clk is not free yet. -/
def freeRegs (s : State) (wg : Nat) (r : Record) : Nat :=
  64 * r.reg - ((s.warps.filter fun w => decide (w.wg = wg ∧ w.status = .running)).map Warp.allot).sum - ((s.wgs[wg]?).map Workgroup.freed).getD 0

/-- A warp that takes a role descriptor (R52): registers below both allotments are kept, new ones are zero, a predicate becomes b. -/
def inRole (w w' : Warp) (d : Desc) (n pd : Nat) : Prop :=
  (∃ v p, w' = { w with role := d.role, cls := d.cls, desc := n, allot := d.allot, pc := d.entry, wait := .none, v := v, p := p } ∧
    p = if pd = 7 then w.p else w.p.set pd (BitVec.allOnes 32)) ∧
  w'.v.length = 8 * d.allot ∧
  ∀ r l, r < 8 * d.allot → w'.vreg r l = (if r < 8 * w.allot then w.vreg r l else 0) ∧ w'.vpsn r l = (r < 8 * w.allot && w.vpsn r l)

/-! ### Steps of the memory, the engines and the network -/

/-- Operation i with its access j replaced. -/
def opsWith (s : State) (i : Nat) (o : Op) (j : Nat) (x : Access) : List Op := s.ops.set i { o with acc := o.acc.set j x }

/-- Access j of operation i, an operation of a memory instruction. -/
def MemAccess (s : State) (i j : Nat) (o : Op) (x : Access) (act : MemAct) : Prop :=
  s.ops[i]? = some o ∧ o.acc[j]? = some x ∧ ∃ d z sg sl, o.kind = .mem act d z sg sl

/-- No store of the cores chosen that is still short of stage order `late` was stamped before x. -/
def oldest (s : State) (cores : Nat → Prop) (stages : List Stage) (x : Access) : Prop :=
  ∀ p ∈ s.ops, cores p.core → ∀ b ∈ p.acc, b.stage ∈ stages → x.stamp ≤ b.stamp

/-- Nothing that R135 and R145 make access x wait for: an empty snapshot, and no earlier operation of its warp. -/
def goesFreely (s : State) (i : Nat) (o : Op) : Prop := o.snap = [] ∧ ∀ p ∈ s.ops.take i, p.warp ≠ o.warp

/-- With no warp picked, the agenda's entry a is the next step, from s to t. -/
def Happens (s : State) (a : Act) (t : State) : Prop := s.picked = [] → step { s with agenda := a :: s.agenda } = .next t

/-- Two dies reach each other, and no link between them retrains (R416, R418). -/
def clearWay (s : State) (d e : Nat) : Prop := s.cutOff d e = false ∧ s.linkHeld d e = false

/-- A load of its core's cached copies: below pkg scope, or of a line homed on its own die (R121). -/
def mayHit (o : Op) (x : Access) : Prop := o.sc.code < 4 ∨ homeDie x.va = coreDie o.core

/-- No store of the cores chosen is at one of the stages given. -/
def noStoresAt (s : State) (cores : Nat → Prop) (stages : List Stage) : Prop :=
  ∀ p ∈ s.ops, cores p.core → ∀ b ∈ p.acc, b.write = true → b.stage ∉ stages

/-- A cache holds no global copy of the sector of an address. -/
def noCopy (ls : List Line) (asid va : Nat) : Prop :=
  ∀ l ∈ ls, l.isPriv = false → l.asid = asid → l.line = va / 128 → l.valid.getLsbD (va % 128 / 32) = false

/-- A value of z bytes whose byte b is `bs b`. -/
def valueOf (z : Nat) (bs : Nat → Byte) (v : BitVec 128) : Prop := ∀ b, b < z → BitVec.ofNat 8 (v.toNat / 256 ^ b) = bs b

/-- The byte at an address after a store with byte enables. -/
def storedByte (m : Bytes) (key : Nat) (x : Access) (a : Nat) : Byte :=
  if key ≤ a ∧ a < key + x.size ∧ x.be.getLsbD (a - key) = true then BitVec.ofNat 8 (x.data.toNat / 256 ^ (a - key)) else Memory.get m a

/-- A store written at home (R112, R119, R122): the bytes that its enables name are in memory, and no other cluster of the home die, nor a core of
one, keeps a copy. -/
def WrittenHome (s t : State) (key asid va : Nat) (x : Access) (from? : Option Nat) : Prop :=
  (∀ a, Memory.get t.mem a = storedByte s.mem key x a) ∧
  (∀ k c, t.cores[k]? = some c → coreDie k = homeDie va → some (coreCl k) ≠ from? → noCopy c.l1 asid va) ∧
  ∀ n c, t.clusters[n]? = some c → n / 16 = homeDie va → some n ≠ from? → noCopy c.cache asid va

/-- The value of a load's register n (R223): sign-extended, or word n of the bytes read. -/
def loadedWord (size : Nat) (signed : Bool) (v n : Nat) : Word :=
  if signed then BitVec.ofInt 32 (if v % 2 ^ (8 * size) < 2 ^ (8 * size - 1) then (v % 2 ^ (8 * size) : Nat) else (v % 2 ^ (8 * size) : Nat) - 2 ^ (8 * size))
  else BitVec.ofNat 32 (v % 2 ^ (8 * size) / 2 ^ (32 * n))

/-- The word that an integer atomic leaves (R226). -/
def aopOf (op : AtomOp) (old x : Word) : Word :=
  match op with
  | .add => BitVec.ofNat 32 (old.toNat + x.toNat)
  | .umin => BitVec.ofNat 32 (min old.toNat x.toNat)
  | .umax => BitVec.ofNat 32 (max old.toNat x.toNat)
  | .smin => BitVec.ofInt 32 (min old.toInt x.toInt)
  | .smax => BitVec.ofInt 32 (max old.toInt x.toInt)
  | .and => old &&& x
  | .or => old ||| x
  | .xor => old ^^^ x
  | .xchg => x
  | .fadd => (faddW old x).1

/-- No key, barrier or ring holds operation i in a set (R133), on a die that can hear of it (R421). -/
def leftSets (t : State) (i : Nat) : Prop :=
  let hears := fun (core : Nat) => t.cutOff (coreDie core) (t.noticeDie none i) = false
  (∀ w ∈ t.warps, hears (((t.wgs[w.wg]?).map Workgroup.core).getD 0) →
    (∀ e ∈ w.keys, ∀ m ∈ e.set, m.op = i → m.chip ≠ none) ∧ (∀ q ∈ w.recvq, ∀ m ∈ q.set, m.op = i → m.chip ≠ none)) ∧
  ∀ g ∈ t.wgs, hears g.core → (∀ b ∈ g.bars, (∀ m ∈ b.cur, m.op = i → m.chip ≠ none) ∧ (∀ m ∈ b.last, m.op = i → m.chip ≠ none)) ∧
    ∀ r ∈ g.rings, ∀ x ∈ r.slots, (∀ m ∈ x.fill, m.op = i → m.chip ≠ none) ∧ (∀ m ∈ x.free, m.op = i → m.chip ≠ none)

/-- Operation i has become complete. -/
def completed (t : State) (i : Nat) : Prop := (t.ops[i]?).map Op.status = some .complete ∧ leftSets t i

/-- The tile and B slots that a workgroup has, as a command's checks see them. -/
def viewOf (g : Workgroup) : TileView := { tiles := g.tiles.map fun t => (t.occ, t.wide), slots := g.bslots.map BSlot.occ }

/-- Operation i is an engine command of a placed workgroup, in its queue. -/
def Queued (s : State) (i : Nat) (o : Op) (cmd : Cmd) (g : Workgroup) (gr : Grid) : Prop :=
  s.ops[i]? = some o ∧ o.kind = .cmd cmd ∧ o.status = .issued ∧ s.wgs[o.wg]? = some g ∧ s.grids[g.grid]? = some gr

/-- No earlier unfinished command of its workgroup, and none that runs on its core. -/
def enginesFree (s : State) (i : Nat) (o : Op) : Prop :=
  (∀ p ∈ s.ops.take i, p.wg = o.wg → p.status = .performed ∨ p.status = .complete) ∧ ∀ p ∈ s.ops, p.core = o.core → p.status ≠ .started

/-- Nothing of a core without a consume snapshot is still to be sent before message m, or before the operation after those given (R321): no other
held message, no issued NRED or LAUNCH. -/
def firstToSend (s : State) (core : Nat) (m : Option Nat) (earlier : List Op) : Prop :=
  (∀ (n : Nat) (y : Msg), s.msgs[n]? = some y → some n ≠ m → y.stage = .held → y.core ≠ core) ∧
  ∀ o ∈ earlier, o.core = core → o.status = .issued → (∀ z x y c v t, o.kind ≠ .nred z x y c v t) ∧ ∀ a, o.kind ≠ .launch a

/-- The value that operation i contributes to a reduction (R253). -/
def nredGiven (s : State) (i : Nat) : BitVec 64 :=
  match (s.ops[i]?).map Op.kind with
  | some (.nred _ _ _ _ v _) => v
  | _ => 0

/-- r is the result of a reduction of the values, f the flags it raises (R254); of .add.f32, .min.f32 and .max.f32 for finite values, and a sum
that is not 0. -/
def NredResult (z : NredOp) (vs : List (BitVec 64)) (r : BitVec 64) (f : Word) : Prop :=
  let w := fun (v : BitVec 64) => v.setWidth 32
  let picks := fun (le : Word → Word → Prop) => r.toNat < 2 ^ 32 ∧ f = 0 ∧ (∃ v ∈ vs, w v = w r) ∧ ∀ v ∈ vs, le (w r) (w v)
  let bits := fun (b : Nat → Prop) => r.toNat < 2 ^ 32 ∧ f = 0 ∧ ∀ k, k < 32 → (r.getLsbD k = true ↔ b k)
  match z with
  | .addI32 => r.toNat = (vs.map fun v => (w v).toNat).sum % 2 ^ 32 ∧ f = 0
  | .addI64 => r.toNat = (vs.map BitVec.toNat).sum % 2 ^ 64 ∧ f = 0
  | .minS32 => picks fun x y => x.toInt ≤ y.toInt
  | .maxS32 => picks fun x y => y.toInt ≤ x.toInt
  | .minU32 => picks fun x y => x.toNat ≤ y.toNat
  | .maxU32 => picks fun x y => y.toNat ≤ x.toNat
  | .and => bits fun k => ∀ v ∈ vs, v.getLsbD k = true
  | .or => bits fun k => ∃ v ∈ vs, v.getLsbD k = true
  | .xor => bits fun k => (vs.countP fun v => v.getLsbD k) % 2 = 1
  | .addF32 => (∀ v ∈ vs, fin32 (w v)) → (vs.map fun v => val32 (w v)).sum ≠ 0 → r.toNat < 2 ^ 32 ∧ Rounds32 (vs.map fun v => val32 (w v)).sum (w r, f)
  | .minF32 => (∀ v ∈ vs, fin32 (w v)) → r.toNat < 2 ^ 32 ∧ (∃ v ∈ vs, val32 (w v) = val32 (w r)) ∧ ∀ v ∈ vs, val32 (w r) ≤ val32 (w v)
  | .maxF32 => (∀ v ∈ vs, fin32 (w v)) → r.toNat < 2 ^ 32 ∧ (∃ v ∈ vs, val32 (w v) = val32 (w r)) ∧ ∀ v ∈ vs, val32 (w v) ≤ val32 (w r)
  | .arrive => r.toNat = vs.length % 2 ^ 64 ∧ f = 0

/-- No open hold but the one named has all its awaited members included (R248). -/
def noHoldFull (s : State) (n : Nat) : Prop :=
  ∀ (k : Nat) (h : Hold), s.holds[k]? = some h → k ≠ n → h.isOpen = true → h.free = false →
    ∃ g ∈ h.awaited, ∀ i ∈ h.included, ((s.ops[i]?).map Op.wg).getD 0 ≠ g

/-- The slots and the scratchpad of a workgroup are in the canonical form of memory. -/
def wellFormedSlots (g : Workgroup) : Prop :=
  Memory.wf g.scratch = true ∧ ∀ t ∈ g.tiles, Memory.wf t.bytes = true

/-- Only tile n has changed among tiles, B slots and the scratchpad. -/
def tileSet (g g' : Workgroup) (n : Nat) (tl : Tile) : Prop := g'.scratch = g.scratch ∧ g'.bslots = g.bslots ∧ g'.tiles = g.tiles.set n tl

/-- A slot's 32 rows loaded from the scratchpad (R266, R269): row r's first RB bytes, then zeros. -/
def rowsLoaded (bytes : Bytes) (g : Workgroup) (off rb : Nat) (pitch : Option Nat) : Prop :=
  ∀ r b, r < 32 → b < 128 → Memory.get bytes (128 * r + b) = if b < rb then Memory.get g.scratch (off + r * pitch.getD rb + b) else 0

/-- The words stand in the scratchpad from an offset on, and its other bytes are as before. -/
def wordsStored (g g' : Workgroup) (off : Nat) (ws : List Word) : Prop :=
  g'.tiles = g.tiles ∧ g'.bslots = g.bslots ∧ (∀ (k : Nat) (x : Word), ws[k]? = some x → Memory.word g'.scratch (off + 4 * k) = x) ∧
    ∀ b, b < off ∨ off + 4 * ws.length ≤ b → Memory.get g'.scratch b = Memory.get g.scratch b

/-- Columns of an accumulator image (R265), and the byte of element (i, j). -/
def colsOf (t : Tile) : Nat := if t.wide then 64 else 32
def elemByte (t : Tile) (i j : Nat) : Nat := 4 * (colsOf t * i + j)
def elemOf (t : Tile) (i j : Nat) : Word := Memory.word t.bytes (elemByte t i j)

/-- A signed byte, and a BF16 code, of a slot's row (R266). -/
def int8At (m : Bytes) (row k : Nat) : Int := (Memory.get m (128 * row + k)).toInt
def code16At (m : Bytes) (row k : Nat) : Nat := Memory.getN m (128 * row + 2 * k) 2

/-- One group of BF16 products added to an accumulator (R96, R97): the 16 products of group q of row i and column j. -/
def bf16Group (a : Tile) (m : BSlot) (ftz : Bool) (i j : Nat) (acc : Word) (q : Nat) : Word :=
  (groupAcc acc ((List.range 16).map fun k => (bf16Value ftz (code16At a.bytes i (16 * q + k)), bf16Value ftz (code16At m.bytes j (16 * q + k))))
    127 127).1

/-- What each matrix and scan command does to its workgroup and warp when its operands are not poisoned (R267 to R276); the formats of MMA and
TCVT given are INT8 and BF16, FP32 and INT8. -/
def MatrixEffect (cmd : Cmd) (g : Workgroup) (w : Warp) (g' : Workgroup) (w' : Warp) : Prop :=
  match cmd with
  | .tcfg n cw => n < g.tiles.length → ∃ tl, tileSet g g' n tl ∧ tl.occ = true ∧ tl.wide = cw.getLsbD 0 ∧ tl.psn = [] ∧ ∀ b, Memory.get tl.bytes b = 0
  | .tzero n => ∀ old, g.tiles[n]? = some old → ∃ tl, tileSet g g' n tl ∧ tl.occ = true ∧ tl.wide = (old.occ && old.wide) ∧
      ∀ b, Memory.get tl.bytes b = if b < 4 * 32 * colsOf tl then 0 else Memory.get old.bytes b
  | .tlda n off p f => ∀ old, g.tiles[n]? = some old → ∃ tl, tileSet g g' n tl ∧ tl.occ = old.occ ∧ tl.wide = old.wide ∧
      rowsLoaded tl.bytes g off (rowBytes (f.toNat % 16) (f.getLsbD 12)) p ∧ ∀ b, 4096 ≤ b → Memory.get tl.bytes b = Memory.get old.bytes b
  | .tldb n off p f => n < g.bslots.length → ∃ sl, g'.scratch = g.scratch ∧ g'.tiles = g.tiles ∧ g'.bslots = g.bslots.set n sl ∧ sl.occ = true ∧
      rowsLoaded sl.bytes g off (rowBytes (f.toNat / 16 % 16) (f.getLsbD 13)) p
  | .tst n off p => ∀ tl, g.tiles[n]? = some tl →
      let row := 4 * colsOf tl
      let pitch := p.getD row
      row ≤ pitch → g'.tiles = g.tiles ∧ g'.bslots = g.bslots ∧
        (∀ i j, i < 32 → j < colsOf tl → Memory.word g'.scratch (off + i * pitch + 4 * j) = elemOf tl i j) ∧
        ∀ b, (∀ i, i < 32 → b < off + i * pitch ∨ off + i * pitch + row ≤ b) → Memory.get g'.scratch b = Memory.get g.scratch b
  | .mma d a m mode f => ∀ td ta sl, g.tiles[d]? = some td → g.tiles[a]? = some ta → g.bslots[m]? = some sl →
      td.psn = [] → ta.psn = [] → sl.psn = [] → (mode.getLsbD 1 = true → td.wide = true) →
      let c0 := if mode.getLsbD 1 then 32 else 0
      let acc := fun i j => if mode.getLsbD 0 then (0 : Word) else elemOf td i (c0 + j)
      ∃ tl, tileSet g g' d tl ∧ tl.occ = td.occ ∧ tl.wide = td.wide ∧
        (∀ b, (∀ i j, i < 32 → j < 32 → b < elemByte td i (c0 + j) ∨ elemByte td i (c0 + j) + 4 ≤ b) → Memory.get tl.bytes b = Memory.get td.bytes b) ∧
        (f.toNat % 4096 = 0x755 → ∀ i j, i < 32 → j < 32 → elemOf tl i (c0 + j) =
          BitVec.ofInt 32 ((acc i j).toInt + ((List.range 64).map fun k => int8At ta.bytes i k * int8At sl.bytes j k).sum)) ∧
        (f.toNat % 4096 = 0x011 → ∀ i j, i < 32 → j < 32 → elemOf tl i (c0 + j) =
          (List.range 4).foldl (bf16Group ta sl (f.getLsbD 15) i j) (acc i j))
  | .tcvt d n cw f => ∀ td ts, g.tiles[d]? = some td → g.tiles[n]? = some ts → ts.psn = [] →
      let x := fun i j => (f32 (elemOf ts i j)).scale (127 - (bitsAt cw 0 8 : Int))
      (bitsAt cw 12 4 = 0 → f.toNat / 256 % 16 = 0 → td.wide = ts.wide → ∃ tl, tileSet g g' d tl ∧ tl.wide = td.wide ∧
        ∀ i j, i < 32 → j < colsOf ts → elemOf tl i j = (fp32.sat .rn (x i j)).1) ∧
      (bitsAt cw 12 4 = 0 → f.toNat / 256 % 16 = 5 → cw.getLsbD 8 = false → ∃ tl, tileSet g g' d tl ∧ tl.wide = td.wide ∧
        ∀ i j, i < 32 → j < colsOf ts → Memory.get tl.bytes (128 * i + j) = ((satInt true 8 .rn (x i j)).1).setWidth 8)
  | .ascan gn on_ k => ∀ tg to_ c, g.tiles[gn]? = some tg → g.tiles[on_]? = some to_ → w.carry[k]? = some c → gn ≠ on_ → tg.wide = false → to_.wide = false →
      tg.psn = [] → to_.psn = [] → c.psn = 0 →
      let r := fun (j : Nat) => scanChunk (fun t => elemOf tg t j) (fun t => elemOf to_ t j) { h := c.h.getD j 0, gc := c.g.getD j 0, hor := c.hor.getLsbD j }
      ∃ tg' to' c', g'.scratch = g.scratch ∧ g'.bslots = g.bslots ∧ g'.tiles = (g.tiles.set gn tg').set on_ to' ∧ w'.carry = w.carry.set k c' ∧
        ∀ j, j < 32 → (∀ t, t < 32 → elemOf tg' t j = (r j).1.getD t 0 ∧ elemOf to' t j = (r j).2.1.getD t 0) ∧
          c'.h[j]? = some (r j).2.2.1.h ∧ c'.g[j]? = some (r j).2.2.1.gc ∧ c'.hor.getLsbD j = (r j).2.2.1.hor
  | .cld n off => g'.scratch = g.scratch ∧ g'.tiles = g.tiles ∧ g'.bslots = g.bslots ∧
      ∀ c, w.carry[n]? = some c → ∃ c', w'.carry = w.carry.set n c' ∧ c'.hor = Memory.word g.scratch (off + 256) ∧
        ∀ l, l < 32 → c'.h[l]? = some (Memory.word g.scratch (off + 4 * l)) ∧ c'.g[l]? = some (Memory.word g.scratch (off + 128 + 4 * l))
  | .cst n off => ∀ c, w.carry[n]? = some c → c.h.length = 32 → c.g.length = 32 → wordsStored g g' off (c.h ++ c.g ++ [c.hor, 0, 0, 0])
  | .copy _ _ => True

/-- Ring word (R288). -/
def ringWord (r : Ring) (i : Nat) (ph : Bool) : Word := BitVec.ofNat 32 (ph.toNat * 2 ^ 31 + i * 2 ^ 21 + (r.base + i * r.slotb) % 2 ^ 21)

/-- The keys with members added to one (R149). -/
def keysAdd (w : Warp) (k : Nat) (ms : List Member) (ks : List KeyEntry) : Prop :=
  if k = 15 then ks = w.keys else ∃ set, ks = w.keys.set k { st := .opened, set := set } ∧ ∀ m, m ∈ set ↔ m ∈ keySetOf w k ∨ m ∈ ms

/-- A warp that has acquired slot i of a ring (R289, R290). -/
def Acquires (w w' : Warp) (r : Ring) (i : Nat) (ph : Bool) (y k : Nat) (set : List Member) : Prop :=
  ∃ (ks : List KeyEntry) (p : BitVec 64), w' = { goesOn w 4 with keys := ks, s := w.s.set y (ringWord r i ph), sPsn := p } ∧ keysAdd w k set ks ∧
    ∀ n, n < 64 → p.getLsbD n = (if n = y then false else w.sPsn.getLsbD n)

/-- The slot that the next acquisition of a side takes, and its phase. -/
def nextSlot (r : Ring) (consumer : Bool) : Nat := if consumer then (r.cidx + r.ocons) % r.n else (r.pidx + r.oprod) % r.n
def nextPhase (r : Ring) (consumer : Bool) : Bool :=
  if consumer then r.cph ^^ decide (r.n ≤ r.cidx + r.ocons) else r.pph ^^ decide (r.n ≤ r.pidx + r.oprod)

/-- A ring after an acquisition of a side (R289, R290). -/
def ringTaken (r r' : Ring) (consumer : Bool) : Prop :=
  ∃ sl : List RingSlot,
    r' = (if consumer then { r with filled := r.filled - 1, ocons := r.ocons + 1, slots := sl }
          else { r with free := r.free - 1, oprod := r.oprod + 1, slots := sl }) ∧ sl.length = r.slots.length ∧
    ∀ j x, r.slots[j]? = some x → sl[j]? = some (if j = nextSlot r consumer then
      (if consumer then { x with cacq := true } else { x with pacq := true }) else x)

/-- A free value of the ring's sets: what an acquisition passes on. -/
def slotSet (r : Ring) (consumer : Bool) : List Member :=
  let x := r.slots.getD (nextSlot r consumer) {}
  if consumer then x.fill else x.free

/-! ### Copy commands -/

/-- Rows and bytes of a row of a copy command's D1 (R277); the row of its word j, and the word in that row. -/
def copyRows (a : CopyArgs) : Nat := bitsAt a.d1 16 16
def copyRowb (a : CopyArgs) : Nat := bitsAt a.d1 0 16
def rowOf (a : CopyArgs) (j : Nat) : Nat := j / (copyRowb a / 4)
def wordOf (a : CopyArgs) (j : Nat) : Nat := j % (copyRowb a / 4)

/-- An access is the held one of a copy command's word at a global address and a scratchpad offset. -/
def CopyWord (o : Op) (asid : Nat) (x : Access) (va scr : Nat) (write : Bool) : Prop :=
  x.va = va ∧ x.scr = scr ∧ x.scrWg = o.wg ∧ x.size = 4 ∧ x.write = write ∧ x.asid = asid ∧ x.stage = .held ∧ x.space = .global

/-- A copy command that writes the scratchpad (R280). -/
def loadsScratch (k : CopyKind) : Prop := k = .ld ∨ k = .sld ∨ k = .g

/-- The slot of the ring that a copy command's SOFF lies in, and whether its side holds that slot (R284). -/
def copySlot (r : Ring) (a : CopyArgs) : Nat := (a.d0.toNat - r.base) / r.slotb
def copySlotHeld (r : Ring) (k : CopyKind) (a : CopyArgs) : Prop :=
  r.n ≠ 0 ∧ r.base ≤ a.d0.toNat ∧ a.d0.toNat < r.base + r.n * r.slotb ∧ copySlot r a < r.n ∧
    (loadsScratch k → (r.slots.getD (copySlot r a) {}).pacq = true) ∧ (¬loadsScratch k → (r.slots.getD (copySlot r a) {}).cacq = true)

/-- A copy command ends (R279, R284): it arrives at the barrier that D3[31] asks for, commits or releases the ring slot that D3[26] asks for,
writes its status word (kind in 31:28, RINGERR 27, BARERR 26, AUX 23:12, NOVF 11:0) to s(y + 3), for a version found that word to
s(y + 2), and leaves every key set. -/
def CopyEnds (s t : State) (i : Nat) (o : Op) (k : CopyKind) (a : CopyArgs) (kind aux novf : Nat) (flags : Word) (found : Option Word) : Prop :=
  t = { s with ops := t.ops, warps := t.warps, wgs := t.wgs, msgs := t.msgs, mgmt := t.mgmt } ∧ completed t i ∧
  ∀ g, s.wgs[o.wg]? = some g →
    let b := g.bars.getD (bitsAt a.d3 27 4) {}
    let r := g.rings.getD (bitsAt a.d3 23 3) {}
    let bar := a.d3.getLsbD 31 = true
    let ring := a.d3.getLsbD 26 = true
    (∀ w, s.warps[o.warp]? = some w → w.status = .running → w.Shaped → a.dreg + 3 < 64 →
      ∃ w' be re, t.warps[o.warp]? = some w' ∧
        w'.sreg (a.dreg + 3) = BitVec.ofNat 32 (kind * 2 ^ 28 + re * 2 ^ 27 + be * 2 ^ 26 + aux % 4096 * 2 ^ 12 + novf % 4096) ∧
        (bar ∧ b.members = 0 → be = 1) ∧ (¬(bar ∧ b.members = 0) → be = 0) ∧
        (ring ∧ ¬copySlotHeld r k a → re = 1) ∧ (¬(ring ∧ ¬copySlotHeld r k a) → re = 0) ∧
        w'.sreg (a.dreg + 2) = found.getD (w.sreg (a.dreg + 2)) ∧ (∀ n, n ≠ a.dreg + 2 → n ≠ a.dreg + 3 → w'.sreg n = w.sreg n) ∧
        w'.aflags = w.aflags ||| flags ∧ w'.pc = w.pc ∧ w'.v = w.v) ∧
    ∃ g', t.wgs[o.wg]? = some g' ∧ g'.scratch = g.scratch ∧
      (let b' := g'.bars.getD (bitsAt a.d3 27 4) {}
       (bar → b.members ≠ 0 → b.arrived + 1 = b.members → b'.phase = (b.phase + 1) % 65536 ∧ b'.arrived = 0) ∧
       (bar → b.members ≠ 0 → b.arrived + 1 ≠ b.members → b'.phase = b.phase ∧ b'.arrived = b.arrived + 1) ∧
       (¬bar → b'.phase = b.phase ∧ b'.arrived = b.arrived ∧ b'.members = b.members)) ∧
      (let r' := g'.rings.getD (bitsAt a.d3 23 3) {}
       let n := copySlot r a
       (ring → copySlotHeld r k a → loadsScratch k →
         (r'.slots.getD n {}).pacq = false ∧ r'.free = r.free ∧ r.filled ≤ r'.filled ∧ (n = r.pidx → r.filled < r'.filled)) ∧
       (ring → copySlotHeld r k a → ¬loadsScratch k →
         (r'.slots.getD n {}).cacq = false ∧ r'.filled = r.filled ∧ r.free ≤ r'.free ∧ (n = r.cidx → r.free < r'.free)) ∧
       (¬ring → r'.filled = r.filled ∧ r'.free = r.free ∧ r'.pidx = r.pidx ∧ r'.cidx = r.cidx))

/-- A copy command that runs, in a workgroup. -/
def CopyRuns (s : State) (i : Nat) (o : Op) (k : CopyKind) (a : CopyArgs) (g : Workgroup) : Prop :=
  s.ops[i]? = some o ∧ o.kind = .cmd (.copy k a) ∧ o.status = .started ∧ s.wgs[o.wg]? = some g

/-- A page of the package whose bytes are here and that is no alias page. -/
def plainPage (s : State) (asid va : Nat) : Prop := s.onAlias asid va = false ∧ ∃ key a v, s.place asid va = .here key a v

/-! ### Steps of the distributor, the debug logic and the platform -/

/-- Every register but those named keeps its word. -/
def keepsRegs (s t : State) (named : Nat → Prop) : Prop := ∀ ma, ¬named ma → t.reg ma = s.reg ma

/-- The registers of the link and platform log (R352, R414). -/
def ofLinkLog (ma : Nat) : Prop := ma = 0x3010 ∨ ma = 0x3018 ∨ (0x5000 ≤ ma ∧ ma < 0x5800)

/-- The link and platform log's newest record (R414, R415): words 0 to 4; with 64 records held, LLLOST counts instead. -/
def newestLink (s t : State) (kind sub link : Nat) (info info2 : Word) : Prop :=
  let n := s.reg 0x3010
  let b := 0x5000 + 32 * (n.toNat % 64)
  ((n - s.reg 0x3014).toNat < 64 →
    t.reg 0x3010 = n + 1 ∧ t.reg b = BitVec.ofNat 32 (kind * 2 ^ 24 + sub * 2 ^ 16 + link * 2 ^ 8) ∧ t.reg (b + 4) = BitVec.ofNat 32 s.tb ∧
      t.reg (b + 8) = BitVec.ofNat 32 (s.tb / 2 ^ 32) ∧ t.reg (b + 12) = info ∧ t.reg (b + 16) = info2) ∧
  (64 ≤ (n - s.reg 0x3014).toNat → t.reg 0x3018 = BitVec.ofNat 32 (min (2 ^ 32 - 1) ((s.reg 0x3018).toNat + 1)))

/-- Where the record of a candidate lies and whose address space it is in (R292, R293): a device entry says so itself, a host queue's
entry is read from its queue. -/
def launchAt (s : State) (c : Candidate) (asid addr : Nat) : Prop :=
  match c.src with
  | .device _ _ => asid = c.asid ∧ addr = c.addr
  | .host q =>
    q < 64 ∧ (s.reg (lqCtl q)).getLsbD 31 = true ∧ asid = bitsAt (s.reg (lqCtl q)) 16 13 ∧
      ∃ lo hi : Word, addr = lo.toNat + 2 ^ 32 * hi.toNat ∧
        s.sysRead asid (bitsAt (s.reg (lqBaseHi q)) 0 20 * 2 ^ 32 + bitsAt (s.reg (lqBaseLo q)) 3 29 * 8 + 8 * bitsAt (s.reg (lqTail q)) 16 12) 2
          = .ok [lo, hi]

/-- Candidate n is the oldest of its source. -/
def oldestOfSource (s : State) (n : Nat) (c : Candidate) : Prop := s.cands[n]? = some c ∧ ∀ x ∈ s.cands.take n, sameQueue c x = false

/-- Candidate n has been taken (R294, R303): it leaves, and HEAD advances or the buffer entry is free. -/
def candTaken (s t : State) (n : Nat) (c : Candidate) : Prop :=
  t.cands = s.cands.eraseIdx n ∧
  match c.src with
  | .device _ _ => t.devBuf = s.devBuf - 1
  | .host q => t.devBuf = s.devBuf ∧ bitsAt (t.reg (lqTail q)) 16 12 = (bitsAt (s.reg (lqTail q)) 16 12 + 1) % 2 ^ bitsAt (s.reg (lqCtl q)) 0 4 % 2 ^ 12 ∧
    bitsAt (t.reg (lqTail q)) 0 12 = bitsAt (s.reg (lqTail q)) 0 12

/-- Nothing waits for room before a grid of a class (R302, R308). -/
def noneBefore (s : State) (cls : Nat) (cand grid : Option Nat) : Prop := s.waitsAbove cls cand grid = false ∧ s.restoreFirst cls = false

/-- The grid at an index has been placed by a plan (R37, R49, R301): a workgroup for each place, numbered in order, and its warps. -/
def placedBy (s t : State) (gi : Nat) (r : Record) (p : List (Nat × Nat × Nat × Nat)) : Prop :=
  t.wgs.length = s.wgs.length + p.length ∧ t.seqNo = s.seqNo + p.length ∧ t.warps.length = s.warps.length + p.length * r.warpDescs.length ∧
  (∀ i, i < s.wgs.length → t.wgs[i]? = s.wgs[i]?) ∧ (∀ i, i < s.warps.length → t.warps[i]? = s.warps[i]?) ∧
  (∀ (i : Nat) (q : Nat × Nat × Nat × Nat), p[i]? = some q → ∃ g, t.wgs[s.wgs.length + i]? = some g ∧ g.grid = gi ∧ g.die = q.1 ∧ g.cl = q.2.1 ∧
    g.wg = q.2.2.1 ∧ g.core = q.2.2.2 ∧ g.status = .placed ∧ g.seq = s.seqNo + 1 + i ∧ g.scratch = [] ∧ g.launchQ = []) ∧
  (∀ (i n : Nat) (d : Desc) (dn : Nat), i < p.length → r.warpDescs[n]? = some (dn, d) →
    ∃ w, t.warps[s.warps.length + i * r.warpDescs.length + n]? = some w ∧ w.wg = s.wgs.length + i ∧ w.num = n ∧ w.pc = d.entry ∧ w.role = d.role ∧
      w.allot = d.allot ∧ w.desc = dn ∧ w.status = .running ∧ w.fmt = r.fmt ∧ w.emask = BitVec.allOnes 32)

/-- Bytes at a place of the home memory, as a word. -/
def homeWord (s : State) (asid va : Nat) : Word := BitVec.ofNat 32 (s.homeRead asid va 4)

/-- The warps of the stopped workgroup as it goes on (R349): each has its step before it, and one that hit passes its breakpoint once. -/
def resumed (s : State) (wi : Nat) : List Warp :=
  s.warps.map fun w => if w.wg = wi then { w with issued := false, passBp := w.stalledAt.isSome } else w

/-- The cluster traces the ASID (R335): EN and ASID of TRCTL. -/
def tracing (s : State) (cl asid : Nat) : Prop := (s.reg (trCtl cl)).getLsbD 31 = true ∧ bitsAt (s.reg (trCtl cl)) 16 13 = asid

/-- A circular buffer (R336, R345): its size, its write offset, the free bytes. -/
def bufSize (s : State) (size : Nat) : Nat := (s.reg size).toNat / 128 * 128
def bufFree (s : State) (size wp rp : Nat) : Nat :=
  let n := bufSize s size
  n - ((s.reg wp).toNat % n + n - (s.reg rp).toNat % n) % n

/-- The buffer of a cluster's TRBASE or STBASE registers lies in one stretch of this package's memory from key k on: every byte of it may
be stored to by a unit on die d, and the tables that translate it lie outside it. -/
def bufAt (s : State) (d asid lo hi size k : Nat) : Prop :=
  4096 ≤ bufSize s size ∧ ∀ i, i < bufSize s size →
    let va := bitsAt (s.reg hi) 0 20 * 2 ^ 32 + (s.reg lo).toNat / 128 * 128 + i
    va < 2 ^ 52 ∧ (∃ w0, s.walkCheck asid va true false d = .ok w0) ∧ (∃ a v, s.place asid va = .here (k + i) a v) ∧
    ∀ m : Bytes, (∀ b, b < k ∨ k + bufSize s size ≤ b → Memory.get m b = Memory.get s.mem b) →
      ({ s with mem := m } : State).place asid va = s.place asid va

/-- A list of bytes stands in a circular buffer of n bytes at key k, from an offset on, and every other byte of memory is as before. -/
def ringBytes (s t : State) (k n wp : Nat) (bs : List Byte) : Prop :=
  (∀ (i : Nat) (b : Byte), bs[i]? = some b → Memory.get t.mem (k + (wp + i) % n) = b) ∧
  ∀ a, (∀ i, i < bs.length → a ≠ k + (wp + i) % n) → Memory.get t.mem a = Memory.get s.mem a

/-- The record of a stall-table entry (R345). -/
def stallRecord (cl : Nat) (e : StallEntry) : List Word :=
  [BitVec.ofNat 32 e.pc, BitVec.ofNat 32 (e.pc / 2 ^ 32), BitVec.ofNat 32 e.blame,
    BitVec.ofNat 32 ((if e.multi then 2 ^ 26 else 0) + e.reason * 2 ^ 20 + e.blame / 2 ^ 32), BitVec.ofNat 32 e.count,
    BitVec.ofNat 32 ((cl / 16 + cl % 16 * 2 ^ 4) * 2 ^ 16 + e.asid), 0, 0]

/-- Two states differ in their management registers alone, and there in those named. -/
def onlyRegs (s t : State) (named : Nat → Prop) : Prop := t = { s with mgmt := t.mgmt } ∧ keepsRegs s t named

/-- The events that read a register which clears on read (R336, R345, R384, R398, R414): its address. -/
def clearingRead (i : Instr) : Option Nat :=
  match i with
  | .ellostRead => some 0x3008
  | .lllostRead => some 0x3018
  | .mellostRead u => some (if u.val = 4 then 0x3028 else maDie u.val 0x88)
  | .cecntRead d => some (maDie d 0x90)
  | .trdropRead cl => some (trDrop cl)
  | .stlostRead cl => some (stLost cl)
  | _ => none

/-- The unit that a register of a cluster belongs to is there (R29): of the read events, those of an absent cluster are left out. -/
def readPresent (s : State) (i : Instr) : Prop :=
  match i with
  | .trdropRead cl => cl < 64 ∧ s.clusterPresent cl = true
  | .stlostRead cl => cl < 64 ∧ s.clusterPresent cl = true
  | _ => True

/-- Registers that a write only stores into, with the bits that it stores (R352): package, die, cluster. -/
def plainPkg : List (Nat × Word) :=
  [(0x48, 0xFFFFFFFF), (0x4C, 0xFFFFFFFF), (0x50, 0xFFFF0000), (0x54, 0xFF), (0x60, 0xFFFFFFFF), (0x84, 0xFFFFFFFF), (0x3004, 0xFFFFFFFF),
    (0x3014, 0xFFFFFFFF), (0x3024, 0xFFFFFFFF)]
def plainDie : List (Nat × Word) :=
  [(0x10, 0xFFFFFFFF), (0x14, 0xFFFF), (0x20, 0x00FFFFFF), (0x24, 0xFFFFFFFF), (0x30, 0x00FFFFFF), (0x40, 0x00FFFFFF), (0x58, 0x000FFFFF),
    (0x84, 0xFFFFFFFF)]
def plainCl : List (Nat × Word) :=
  [(0x80, 0xFFFFFFFD), (0x84, 0x000FFFFF), (0x88, 0x00001FFF), (0xC8, 0xFFFFFFFF), (0xCC, 0xFFFFFFFF), (0xD0, 0x000FFFFF)]
def plainReg (s : State) (ma : Nat) (mask : Word) : Prop :=
  (ma, mask) ∈ plainPkg ∨ (∃ d off, d < 4 ∧ (off, mask) ∈ plainDie ∧ ma = maDie d off) ∨
    ∃ cl off, cl < 64 ∧ s.clusterPresent cl = true ∧ (off, mask) ∈ plainCl ∧ ma = maCl cl off

/-- Registers that only read (R352): of the package, of a die. -/
def readOnly : List Nat := [0x00, 0x10, 0x34, 0x78, 0x7C, 0x90, 0x94, 0xA4, 0x3000, 0x3008, 0x3010, 0x3018, 0x4000, 0x5000, 0x6000, 0x01000000, 0x01000088]

/-- Port p is a port of the wire of port l: the port itself, or on a side link the one it meets (R14, R21). -/
def onWire (l p : Nat) : Bool :=
  decide (p = l ∨ (l % 3 = 1 ∧ p = 3 * ((l / 3 + 1) % 4) + 2) ∨ (l % 3 = 2 ∧ p = 3 * ((l / 3 + 3) % 4) + 1))

/-- LINK of an in-package port (R415). -/
def linkByte (l : Nat) : Nat := 0x10 + 4 * (l / 3) + l % 3

/-- The widths of R416: the largest that the working lanes allow. -/
def widthOf (lanes : BitVec 64) : Nat :=
  let n := (List.range 64).countP fun j => lanes.getLsbD j
  if n = 64 then 64 else if 32 ≤ n then 32 else if 16 ≤ n then 16 else if 8 ≤ n then 8 else 0

/-- STATE of a fibre group (R318). -/
def groupStateOf (s : State) (g : Nat) : Nat := bitsAt (s.reg (lgStat g)) 30 2

/-- A group is out of service (R421): what it held in flight on it is lost, every other message stays. -/
def groupDown (s t : State) (g : Nat) : Prop :=
  (t.flitIn = s.flitIn.filter fun f => f.group != g) ∧ t.outbox.length = s.outbox.length ∧
  ∀ (n : Nat) (m : OutMsg), s.outbox[n]? = some m →
    t.outbox[n]? = some (if m.group = g ∧ m.left ≠ 0 then { m with left := 0, lost := true } else m)

/-- Flits that were sent on a group and that its peer has not acknowledged (R415). -/
def flitsOut (s : State) (g : Nat) : Nat := (s.outbox.map fun m => if m.group = g ∧ m.lost = false then m.left else 0).sum

/-- An in-package link fails (R416 to R418): a LANE record, then LINKFAIL; the wire carries nothing more; a die without a link is isolated. -/
def LinkFails (s t : State) (l lane sub width : Nat) : Prop :=
  t = { s with links := t.links, mgmt := t.mgmt, dies := t.dies } ∧ keepsRegs s t ofLinkLog ∧
  (∃ u info, u.tb = s.tb ∧ newestLink s u 1 0 (linkByte l) (BitVec.ofNat 32 lane) (BitVec.ofNat 32 width) ∧ newestLink u t 4 sub (linkByte l) info 0) ∧
  (∀ (p : Nat) (y : DieLink), s.links[p]? = some y → ∃ z, t.links[p]? = some z ∧
    if onWire l p then z.failed = true ∧ z.training = false else z = y) ∧
  ∀ (d : Nat) (x : Die), d < 4 → s.dies[d]? = some x → ∃ y, t.dies[d]? = some y ∧ y.step = x.step ∧ y.freqWant = x.freqWant ∧
    (y.isolated = true ↔ x.isolated = true ∨ ∀ p, p < 3 → (t.link (3 * d + p)).failed = true)

/-- Lane and link as R416 sees them after the loss of a lane. -/
def lanesLeft (x : DieLink) (lane : Nat) : BitVec 64 := x.lanes &&& ~~~(BitVec.ofNat 64 (2 ^ lane))

/-- A frequency request at an end of link l has had n restarts of the link's retraining (R417). -/
def restartsAt (s : State) (l n : Nat) : Prop := ∃ p, p < 12 ∧ onWire l p = true ∧ (s.die (p / 3)).freqWant.isSome = true ∧ n ≤ (s.die (p / 3)).restarts.getD (p % 3) 0

/-- Channel n's owner, home slice n or cluster n - 64, is on the die (R29, R415, R422). -/
def ownsChannel (x : Die) (n : Nat) : Prop :=
  (n < 32 ∧ x.sliceLo.getLsbD n = true) ∨ (32 ≤ n ∧ n < 64 ∧ x.sliceHi.getLsbD (n - 32) = true) ∨ (64 ≤ n ∧ n < 80 ∧ x.clmask.getLsbD (n - 64) = true)

/-- Group g is the slave port of a package that is not grandmaster (R332, R333). -/
def slavePort (s : State) (g : Nat) : Prop := (s.reg 0x0074).getLsbD 30 = false ∧ bitsAt (s.reg 0x0070) 16 4 = g

/-- The slave port has a Sync's times of origin and receipt (R332): one-step, or by a Follow_Up. -/
def syncTimes (s : State) (m : PtpMsg) (t1 t2 : Nat) : Prop :=
  (m.kind = .sync (some t1) ∧ t2 = s.tb) ∨ (m.kind = .followUp t1 ∧ s.ptp.syncAt = some t2 ∧ m.seq = s.ptp.syncSeq)

/-- The time base takes an offset (R332, R333, R423). -/
def TakesOffset (s t : State) (o : Int) : Prop :=
  let sat := max (-32767) (min 32767 o)
  bitsAt (t.reg 0x0074) 0 16 = (sat % 2 ^ 16).toNat ∧
  (o < -16000 → t.tb = s.tb + o.natAbs ∧ t.tbHold = 0 ∧ ∀ (n : Nat) (q : Op) (sd t0 h : Nat), s.ops[n]? = some q → q.kind = .time sd → q.status = .issued →
    q.aux = [t0, h] → (t.ops[n]?).map Op.aux = some [t0 + o.natAbs, h]) ∧
  (-16000 ≤ o → t.tb = s.tb ∧ t.ops = s.ops ∧ t.tbHold = if 16000 < o ∨ 0 < s.tbHold then o.toNat else 0) ∧
  (o.natAbs < 16 → t.ptp.good = true ∧ t.tbOk = s.tbOk ∧ (t.reg 0x0074).getLsbD 31 = (s.reg 0x0074).getLsbD 31) ∧
  (16 ≤ o.natAbs → t.ptp.good = false ∧ t.tbOk = 0 ∧ (t.reg 0x0074).getLsbD 31 = false ∧
    ((s.reg 0x0074).getLsbD 31 = true → t.tbLost = true ∧ newestLink s t 7 1 0xFF (BitVec.ofInt 32 sat) (BitVec.ofNat 32 (bitsAt (s.reg 0x0070) 16 4))))

/-- Fields of a flit header (R319): class, destination, source, flits of the message less 1, place in it. -/
def hCls (h : BitVec 64) : Nat := h.toNat / 2 ^ 60
def hDst (h : BitVec 64) : Nat := h.toNat / 2 ^ 40 % 2 ^ 20
def hSrc (h : BitVec 64) : Nat := h.toNat / 2 ^ 20 % 2 ^ 20
def hNfm1 (h : BitVec 64) : Nat := h.toNat / 2 ^ 16 % 16
def hSeq (h : BitVec 64) : Nat := h.toNat / 2 ^ 12 % 16

/-- The flit is the next one of its class's message on the group (R319); it is not of a message that is being discarded. -/
def nextFlit (s : State) (g : Nat) (h : BitVec 64) : Prop :=
  hSeq h ≤ hNfm1 h ∧
  ((hSeq h = 0 ∧ ∀ f ∈ s.flitIn, ¬(f.group = g ∧ f.cls = hCls h)) ∨
    ∃ f, s.flitIn.find? (fun f => f.group == g && f.cls == hCls h) = some f ∧ f.dst = hDst h ∧ f.src = hSrc h ∧ f.nfm1 = hNfm1 h ∧ f.next = hSeq h ∧
      f.drop = false)

/-- What has arrived of the other messages, and CRC failures of the other groups. -/
def otherFlits (s : State) (g : Nat) (h : BitVec 64) : List FlitIn := s.flitIn.filter fun f => !(f.group == g && f.cls == hCls h)
def otherFails (s : State) (g : Nat) : List (Nat × Nat) := s.crcFails.filter fun x => x.1 != g

/-- What is kept of a message after a flit that is not its last: `drop` says whether its other flits are discarded too. -/
def keptFlit (s : State) (g : Nat) (h : BitVec 64) (drop : Bool) : List FlitIn :=
  if hSeq h = hNfm1 h then otherFlits s g h
  else { group := g, cls := hCls h, dst := hDst h, src := hSrc h, nfm1 := hNfm1 h, next := hSeq h + 1, drop := drop } :: otherFlits s g h

/-- Group g carries time-class flits (R317, R332). -/
def carriesTime (s : State) (g : Nat) : Prop :=
  groupStateOf s g = 2 ∧ (s.reg (lgStat g)).getLsbD 29 = true ∧ (s.reg (lgCtl g)).getLsbD 28 = true

/-- The placed or running grid that a management command names by its ASID and MGARG (R360). -/
def namedGrid (s : State) (v : Word) (gi : Nat) : Prop := s.mgGrid (bitsAt v 0 13) = some gi

/-- BOOTSTAT (R353). -/
def bootstat (ready stage fail svn version : Nat) : Word :=
  BitVec.ofNat 32 (ready * 2 ^ 31 + stage * 2 ^ 28 + fail * 2 ^ 24 + svn % 256 * 2 ^ 16 + version % 2 ^ 16)

/-- Bytes of a firmware header as a little-endian number. -/
def headerField (f : FwImage) (off n : Nat) : Nat := ((List.range n).map fun i => (f.header.getD (off + i) 0).toNat * 256 ^ i).sum

/-- Nothing runs and nothing is held: no warp, workgroup or grid, no operation, empty memory. -/
def lifeless (t : State) : Prop := t.warps = [] ∧ t.wgs = [] ∧ t.grids = [] ∧ t.ops = [] ∧ t.mem = [] ∧ t.msgs = [] ∧ t.picked = []

/-- A HOST record is the newest of the Rileveken die's memory error log (R399, R411). -/
def HostRecord (s t : State) (addr cause : Nat) (write : Bool) : Prop :=
  keepsRegs s t (fun ma => ma = 0x3020 ∨ ma = 0x3028 ∨ (0x6000 ≤ ma ∧ ma < 0x6800)) ∧
  let n := s.reg 0x3020
  let b := 0x6000 + 32 * (n.toNat % 64)
  ((n - s.reg 0x3024).toNat < 64 →
    t.reg 0x3020 = n + 1 ∧ bitsAt (t.reg b) 24 8 = 9 ∧ t.reg (b + 12) = BitVec.ofNat 32 addr ∧ t.reg (b + 20) = BitVec.ofNat 32 cause ∧
      t.reg (b + 24) = if write then 2 else 1)

/-- The newest reply is an error completion (R411): all ones for a read; and a HOST record is written. -/
def hostFails (s t : State) (a : HostAcc) (cause : Nat) : Prop :=
  t = { s with mgmt := t.mgmt, replies := .host (if a.data.isSome then [] else List.replicate a.len 0xFF) false false :: s.replies } ∧
  HostRecord s t a.addr cause a.data.isSome

/-- A host adapter's group is up and carries the access (R330, R355). -/
def hostGroupUp (s : State) (a : HostAcc) : Prop :=
  s.up = true ∧ a.len ≠ 0 ∧ groupStateOf s a.group = 2 ∧ (s.reg (lgCtl a.group)).getLsbD 29 = true

/-- MGAP is enabled, at a base, and the bootstrap aperture is gone (R354, R355). -/
def apertureAt (s : State) (base : Nat) : Prop :=
  (s.aperture = false ∨ s.hostGroup = none) ∧ (s.reg 0x0080).getLsbD 0 = true ∧ base = (s.reg 0x0084).toNat * 2 ^ 32 + bitsAt (s.reg 0x0080) 31 1 * 2 ^ 31

/-- The windows decode host accesses: end of reset, a host adapter's group is up, the bootstrap aperture is gone, the address is not in MGAP (R330, R354,
R355). -/
def windowsDecode (s : State) (a : HostAcc) : Prop :=
  hostGroupUp s a ∧ (s.aperture = false ∨ s.hostGroup = none) ∧
    ((s.reg 0x0080).getLsbD 0 = false ∨ a.addr < (s.reg 0x0084).toNat * 2 ^ 32 + bitsAt (s.reg 0x0080) 31 1 * 2 ^ 31 ∨
      (s.reg 0x0084).toNat * 2 ^ 32 + bitsAt (s.reg 0x0080) 31 1 * 2 ^ 31 + 2 ^ 31 ≤ a.addr)

/-- The command that an MGCMD event runs (R360): the one that the register holds while BUSY, else a written one. -/
def runsMg (s : State) (v c : Word) : Prop := ((s.reg 0x0040).getLsbD 27 = true → c = s.reg 0x0040) ∧ ((s.reg 0x0040).getLsbD 27 = false → c = v)

/-- Word i of host window n (R330). -/
def winWord (s : State) (n i : Nat) : Word := s.reg (0x2000 + 32 * n + 4 * i)
def winBase (s : State) (n : Nat) : Nat := (winWord s n 3).toNat * 2 ^ 32 + bitsAt (winWord s n 2) 16 16 * 2 ^ 16
def winHolds (s : State) (n ha : Nat) : Prop :=
  (winWord s n 0).getLsbD 31 = true ∧ winBase s n ≤ ha ∧ ha < winBase s n + bitsAt (winWord s n 4) 0 24 * 65536

/-- The instruction meets a hardware trap cause (R377): a check of the lowest acting lane that fails one, or of the scalar unit; a matrix or scan
command or a ROLE with lanes inactive, a ROLE with the stack in use; an arrival at a barrier without members; a ring that is not set up. -/
def TrapsWith (i : Instr) (s : State) (c : Ctx) (cause : Nat) : Prop :=
  (∃ m f l, memOf i = some (m, f) ∧ canProduce c.w m.prod ∧ l ∈ actingLanes c.w m.grd ∧ (∀ k ∈ actingLanes c.w m.grd, k < l → laneReady s c f m k) ∧
    ((f.space = .global ∧ globalCause s c f (laneSumOf c.w m l) = some cause) ∨ (f.space = .scratch ∧ scratchCause c f (laneOffOf c.w m l) = some cause) ∨
      (f.space = .priv ∧ privCause c f (laneOffOf c.w m l) = some cause))) ∨
  (∃ a off f, scalarMemOf i = some (a, off, f) ∧ globalCause s c f (scalarAddr c.w a off) = some cause) ∨
  ((∃ x, matrixOf i = some x) ∧ c.w.emask ≠ BitVec.allOnes 32 ∧ cause = 1) ∨
  ((∃ d n, i = .role d n) ∧ (c.w.emask ≠ BitVec.allOnes 32 ∨ c.w.stack ≠ [] ∨ c.w.spilled ≠ 0) ∧ cause = 1) ∨
  ((∃ d a, (i = .barr d a ∨ i = .barrLeave d a) ∧ (c.g.bars.getD d.val {}).members = 0) ∧ cause = 2) ∨
  ((∃ x y k r, (i = .rputAcq x y k ∨ i = .rgetAcq x y k) ∧ c.g.rings[x.val]? = some r ∧ r.n = 0) ∧ cause = 3)

end Sys2Proof.Claims

open Sys2Proof Sys2Proof.Machine Sys2Proof.Claims

/-! ### Moves, integers, fields, predicates -/

/-- R202, R40: a move completes and writes the value of R202 in the acting lanes of v(d); nothing else changes. -/
def Obligations.MovesWriteTheirValue : Prop :=
  ∀ i x s c, moveOf i = some x → Issues i s c → c.w.Shaped →
    WritesLanes i s c.w x.n x.d x.g (x.val c.w) (x.psn c.w) 0

/-- R203: integer arithmetic of the lane set completes with its exact result modulo 2^32 in the acting lanes. -/
def Obligations.LaneIntegerArithmetic : Prop :=
  ∀ i x s c, intOf i = some x → Issues i s c → c.w.Shaped →
    WritesLanes i s c.w x.n x.d x.g (x.val c.w) (x.psn c.w) 0

/-- R204, R205, R208, R209: bit fields bit by bit, selection, shuffles, ballot. -/
def Obligations.LaneFieldsSelectsShuffles : Prop :=
  ∀ i x s c, fieldOf i = some x → Issues i s c → c.w.Shaped →
    WritesLanes i s c.w x.n x.d x.g (x.val c.w) (x.psn c.w) 0

/-- R206, R207, R209: integer compares, predicate logic and votes write a predicate in the acting lanes; a write to p7 is
ignored. -/
def Obligations.ComparesAndVotes : Prop :=
  ∀ i x s c, predOf i = some x → Issues i s c → c.w.Shaped → WritesPred i s c.w x.d x.g (x.val c.w)

/-! ### Floating point -/

/-- R200, R210 to R220: the floating-point, conversion, dot, scaling and N4O instructions complete; each acting lane of v(d) receives
its operation's value, AFLAGS gains what the acting lanes raise, and nothing else changes. -/
def Obligations.FloatInstructionsComplete : Prop :=
  ∀ i x s c, floatOf i = some x → Issues i s c → c.w.Shaped →
    WritesLanes i s c.w 4 x.d x.g (fun l => (x.val c.w l).1) (x.psn c.w) (raised c.w x.g (x.val c.w))

/-- R206: FCMP compares FP32 values as real numbers, −0 equal to +0, a NaN unordered, and writes a predicate. -/
def Obligations.FcmpComparesReals : Prop :=
  ∀ (cc : Fcc) (d : Fin 8) (a b : Fin 128) (g : Guard) (s : State) (c : Ctx),
    Issues (.fcmp cc d a b g) s c → c.w.Shaped →
    WritesPred (.fcmp cc d a b g) s c.w d g fun l =>
      let x := c.w.vreg a l
      let y := c.w.vreg b l
      let un := isNaN32 x ∨ isNaN32 y
      match cc with
      | .eq => ¬un ∧ val32 x = val32 y
      | .ne => un ∨ val32 x ≠ val32 y
      | .lt => ¬un ∧ val32 x < val32 y
      | .le => ¬un ∧ val32 x ≤ val32 y
      | .gt => ¬un ∧ val32 x > val32 y
      | .ge => ¬un ∧ val32 x ≥ val32 y
      | .un => un
      | .ord => ¬un

/-- R92: RoundNE takes an exact value to the nearest code of each of the five formats, ties to the even one, overflowing to an
infinity or, in E4M3, saturating; it keeps zeros' signs, infinities and NaNs as R92 says. A value that rounds to a zero keeps its sign, which
R92 leaves open. The model's choice in it: log entry 93. -/
def Obligations.RoundNEIsNearestEven : Prop :=
  ∀ F ∈ formats,
    (∀ (neg : Bool) (m : Nat) (e : Int), m ≠ 0 → Rounds F neg (m * (2 : ℝ) ^ e) (F.roundNE (.fin neg m e))) ∧
    (∀ (neg : Bool) (e : Int), F.roundNE (.fin neg 0 e) = (BitVec.ofNat 32 (signedCode F neg 0), 0)) ∧
    (∀ neg : Bool, F.roundNE (.inf neg) =
      if F.e4m3 then (BitVec.ofNat 32 (signedCode F neg 0x7F), 0x20) else (BitVec.ofNat 32 (signedCode F neg (topCode F)), 0)) ∧
    F.roundNE .nan = (BitVec.ofNat 32 (if F.e4m3 then 0x80 else topCode F + 2 ^ (F.fw - 1)), 0)

/-- R95, R96, R210, R215, R217: on finite operands the sum, difference, product, fused multiply-add, scaling and the dot product of
two BF16 pairs are the exact real result rounded once.
The model's choice in it: log entry 93. -/
def Obligations.FloatArithmeticRoundsOnce : Prop :=
  (∀ a b, fin32 a → fin32 b → Rounds32 (val32 a + val32 b) (faddW a b)) ∧
  (∀ a b, fin32 a → fin32 b → Rounds32 (val32 a - val32 b) (fsubW a b)) ∧
  (∀ a b, fin32 a → fin32 b → Rounds32 (val32 a * val32 b) (fmulW a b)) ∧
  (∀ a b c, fin32 a → fin32 b → fin32 c → Rounds32 (val32 a * val32 b + val32 c) (ffmaW a b c)) ∧
  (∀ a b, fin32 a → b.toNat % 256 ≠ 255 → b.toNat / 256 % 256 ≠ 255 →
    Rounds32 (val32 a * (2 : ℝ) ^ ((b.toNat % 256 : Nat) + (b.toNat / 256 % 256 : Nat) - 254 : Int)) (sclx a b)) ∧
  (∀ a b c, fin32 c → (∀ i, i < 2 → isFinite bf16 (a.toNat / 2 ^ (16 * i) % 2 ^ 16) ∧ isFinite bf16 (b.toNat / 2 ^ (16 * i) % 2 ^ 16)) →
    Rounds32 (val32 c + floatVal bf16 (a.toNat % 2 ^ 16) * floatVal bf16 (b.toNat % 2 ^ 16)
      + floatVal bf16 (a.toNat / 2 ^ 16) * floatVal bf16 (b.toNat / 2 ^ 16)) (dot2 false a b c))

/-- R87, R92, R95, R210, R211: zero sums and products, NaN operands and invalid operations of FADD and FMUL; FMIN and FMAX give the lesser
and the greater operand, −0 below +0, the other operand where one is a NaN. -/
def Obligations.FloatSpecialOperands : Prop :=
  (∀ a b, fin32 a → fin32 b → val32 a + val32 b = 0 → faddW a b = (if a = 0x80000000 ∧ b = 0x80000000 then 0x80000000 else 0, 0)) ∧
  (∀ a b, fin32 a → fin32 b → val32 a * val32 b = 0 → fmulW a b = (if a.msb = b.msb then 0 else 0x80000000, 0)) ∧
  (∀ a b, isNaN32 a ∨ isNaN32 b → faddW a b = (0x7FC00000, 0) ∧ fsubW a b = (0x7FC00000, 0) ∧ fmulW a b = (0x7FC00000, 0)) ∧
  (faddW 0x7F800000 0xFF800000 = (0x7FC00000, 1) ∧ faddW 0xFF800000 0x7F800000 = (0x7FC00000, 1)) ∧
  (∀ a b, a.toNat % 2 ^ 31 = 0 → b.toNat % 2 ^ 31 = 0x7F800000 → fmulW a b = (0x7FC00000, 1) ∧ fmulW b a = (0x7FC00000, 1)) ∧
  (∀ a b, ¬isNaN32 a → ¬isNaN32 b → val32 a < val32 b → fminW a b = a ∧ fminW b a = a ∧ fmaxW a b = b ∧ fmaxW b a = b) ∧
  (fminW 0 0x80000000 = 0x80000000 ∧ fminW 0x80000000 0 = 0x80000000 ∧ fmaxW 0 0x80000000 = 0 ∧ fmaxW 0x80000000 0 = 0) ∧
  (∀ a b, isNaN32 a → ¬isNaN32 b → fminW a b = b ∧ fminW b a = b ∧ fmaxW a b = b ∧ fmaxW b a = b) ∧
  (∀ a b, isNaN32 a → isNaN32 b → fminW a b = 0x7FC00000 ∧ fmaxW a b = 0x7FC00000) ∧
  (∀ a, ¬isNaN32 a → fminW a a = a ∧ fmaxW a a = a)

/-- R212: FRCP, FSQRT and FRSQ round the exact real value of their function once; all six functions give the exact cases of R212's table,
FLOG2(1.0) is +0 and FEXP2 of an integer is exact. -/
def Obligations.RootsAndReciprocalsRoundOnce : Prop :=
  (∀ a, fin32 a → val32 a ≠ 0 → Rounds32 (1 / val32 a) (frcpW a)) ∧
  (∀ a, fin32 a → 0 < val32 a → Rounds32 (Real.sqrt (val32 a)) (fsqrtW a)) ∧
  (∀ a, fin32 a → 0 < val32 a → Rounds32 (1 / Real.sqrt (val32 a)) (frsqW a)) ∧
  (∀ a, fin32 a → val32 a < 0 → fsqrtW a = (0x7FC00000, 1) ∧ frsqW a = (0x7FC00000, 1) ∧ flog2W a = (0x7FC00000, 1)) ∧
  (∀ a, isNaN32 a → frcpW a = (0x7FC00000, 0) ∧ frsqW a = (0x7FC00000, 0) ∧ fsqrtW a = (0x7FC00000, 0) ∧ fexp2W a = (0x7FC00000, 0) ∧
    flog2W a = (0x7FC00000, 0) ∧ ftanhW a = (0x7FC00000, 0)) ∧
  (frcpW 0xFF800000 = (0x80000000, 0) ∧ frcpW 0x80000000 = (0xFF800000, 0) ∧ frcpW 0 = (0x7F800000, 0) ∧ frcpW 0x7F800000 = (0, 0)) ∧
  (frsqW 0xFF800000 = (0x7FC00000, 1) ∧ frsqW 0x80000000 = (0xFF800000, 0) ∧ frsqW 0 = (0x7F800000, 0) ∧ frsqW 0x7F800000 = (0, 0)) ∧
  (fsqrtW 0xFF800000 = (0x7FC00000, 1) ∧ fsqrtW 0x80000000 = (0x80000000, 0) ∧ fsqrtW 0 = (0, 0) ∧ fsqrtW 0x7F800000 = (0x7F800000, 0)) ∧
  (fexp2W 0xFF800000 = (0, 0) ∧ fexp2W 0x80000000 = (0x3F800000, 0) ∧ fexp2W 0 = (0x3F800000, 0) ∧ fexp2W 0x7F800000 = (0x7F800000, 0)) ∧
  (flog2W 0xFF800000 = (0x7FC00000, 1) ∧ flog2W 0x80000000 = (0xFF800000, 0) ∧ flog2W 0 = (0xFF800000, 0) ∧ flog2W 0x7F800000 = (0x7F800000, 0) ∧
    flog2W 0x3F800000 = (0, 0)) ∧
  (ftanhW 0xFF800000 = (0xBF800000, 0) ∧ ftanhW 0x80000000 = (0x80000000, 0) ∧ ftanhW 0 = (0, 0) ∧ ftanhW 0x7F800000 = (0x3F800000, 0)) ∧
  (∀ a (n : Int), -149 ≤ n → n ≤ 127 → fin32 a → val32 a = n → ∃ r, fexp2W a = (r, 0) ∧ val32 r = (2 : ℝ) ^ n)

/-- R94, R214: a conversion to an integer format rounds to an integer by its mode, clamps to the format's range with SAT when clamping
changes it, and sets NX when rounding changed it. -/
def Obligations.IntegerConversionRoundsThenClamps : Prop :=
  ∀ (signed : Bool) (n : Nat) (m : Rm) (neg : Bool) (k : Nat) (e : Int), (signed, n) ∈ [(true, 8), (true, 32), (false, 32)] →
    let x : ℝ := (if neg then -1 else 1) * (k * (2 : ℝ) ^ e)
    let v := intOfMode m x
    let lo : Int := if signed then -(2 ^ (n - 1)) else 0
    let hi : Int := if signed then 2 ^ (n - 1) - 1 else 2 ^ n - 1
    (satInt signed n m (.fin neg k e)).1 = BitVec.ofInt 32 ((max lo (min hi v)) % 2 ^ n) ∧
    ((satInt signed n m (.fin neg k e)).2.getLsbD 5 = true ↔ v < lo ∨ hi < v) ∧
    ((satInt signed n m (.fin neg k e)).2.getLsbD 3 = true ↔ (v : ℝ) ≠ x)

/-! ### Scalar instructions -/

/-- R181: scalar arithmetic, logic and comparison complete with the value of R181 in s(d). -/
def Obligations.ScalarArithmetic : Prop :=
  ∀ i x s c, scalarOf i = some x → Issues i s c → WritesScalar i s c.w x.n x.d (x.val c.w) (x.psn c.w)

/-- R182, R189, R190, R233, R243: constants, EMASK, FMT, a key's status word and a barrier's word are read into s(d). -/
def Obligations.ScalarConstantsAndReads : Prop :=
  ∀ i n d f s c, readOf i = some (n, d, f) → Issues i s c → WritesScalar i s c.w n d (f s c) false

/-- R77, R78, R79: SRD reads the register of its number, 0 for an unassigned one; SRD of CLKLO latches bits 63:32 of the clk
counter for CLKHI. SWR writes bits 22:16 and 6:0 of AFLAGS, and with any other number nothing. -/
def Obligations.SpecialRegistersReadAndWrite : Prop :=
  (∀ (d : Fin 64) (n : BitVec 13) s c, Issues (.srd d n) s c →
    ∃ m : BitVec 64,
      LeavesWarp (.srd d n) s { goesOn c.w 4 with
        s := c.w.s.set d (srdWord s c n.toNat), sPsn := m
        clkLatch := if n.toNat = 0x18 then BitVec.ofNat 32 ((s.core c.g.core).clk / 2 ^ 32) else c.w.clkLatch } ∧
      ∀ r, r < 64 → m.getLsbD r = (if r = d.val then false else c.w.sPsn.getLsbD r)) ∧
  (∀ (d : Fin 64) (n : BitVec 13) s c, Issues (.srd d n) s c → assignedNumber n.toNat = false →
    ∃ t, exec (.srd d n) s = .next t ∧ t.warps[s.cur]?.map (fun (w : Warp) => w.s) = some (c.w.s.set d 0)) ∧
  ∀ (a : Fin 64) (n : BitVec 13) s c, Issues (.swr a n) s c →
    LeavesWarp (.swr a n) s { goesOn c.w 4 with aflags := if n.toNat = 0x10 then c.w.sreg a &&& 0x007F007F else c.w.aflags }

/-- R189, R190, R197: EMWR writes all of EMASK, SFMT all of FMT but bit 14; SNOP writes nothing. -/
def Obligations.StatusWrites : Prop :=
  (∀ (a : Fin 64) s c, Issues (.emwr a) s c → LeavesWarp (.emwr a) s { goesOn c.w 4 with emask := c.w.sreg a }) ∧
  (∀ (a : Fin 64) s c, Issues (.sfmt a) s c → LeavesWarp (.sfmt a) s { goesOn c.w 4 with fmt := (c.w.sreg a).setWidth 16 &&& 0xBFFF }) ∧
  (∀ (lit : Word) s c, Issues (.sfmtLiteral lit) s c →
    LeavesWarp (.sfmtLiteral lit) s { goesOn c.w 8 with fmt := lit.setWidth 16 &&& 0xBFFF }) ∧
  (∀ s c, Issues .snop s c → LeavesWarp .snop s (goesOn c.w 4))

/-! ### Control flow -/

/-- R186: a branch goes to PC + 4 × offset when its condition holds, else to PC + 4, and changes nothing else. -/
def Obligations.BranchesGoWhereR186Says : Prop :=
  let go := fun (i : Instr) (off : BitVec 21) (taken : Warp → Prop) => ∀ s c, Issues i s c →
    (taken c.w → LeavesWarp i s { c.w with pc := branchTo c.w.pc off, wait := .none }) ∧
    (¬taken c.w → LeavesWarp i s (goesOn c.w 4))
  (∀ off, go (.bra off) off fun _ => True) ∧
  (∀ x off, go (.brcNz x off) off fun w => w.sreg x ≠ 0) ∧
  (∀ x off, go (.brcZ x off) off fun w => w.sreg x = 0) ∧
  (∀ inv p off, go (.brany inv p off) off fun w => ∃ l, l < 32 ∧ w.emask.getLsbD l = true ∧ condBit w inv p l = true) ∧
  (∀ inv p off, go (.brall inv p off) off fun w => ∀ l, l < 32 → w.emask.getLsbD l = true → condBit w inv p l = true)

/-- R43, R45, R46, R187, R188, R387: CALL and SPLIT push their entries and go on, where the hardware part of the stack has room; a push beyond
the capacity kills the warp with nothing pushed; with 32 entries in hardware the lowest is spilled to its four words, after the check
of its page, which kills the warp where it fails. -/
def Obligations.CallAndSplitPush : Prop :=
  (∀ off s c, Issues (.call off) s c → hasRoom c 1 →
    LeavesWarp (.call off) s { c.w with
      stack := entryOf c.w (c.w.pc + 4) c.w.emask 3 0 :: c.w.stack, pc := branchTo c.w.pc off, wait := .none }) ∧
  (∀ inv (p : Fin 8) (e : Fin 1024) (j : Fin 2048) s c, Issues (.split inv p e j) s c → hasRoom c 2 →
    let yes := lanesWith c.w inv p
    let no := lanesWithout c.w inv p
    let epc := c.w.pc + BitVec.ofNat 52 (4 * e.val)
    let recv := entryOf c.w (epc + BitVec.ofNat 52 (4 * j.val)) c.w.emask 2 0
    (yes ≠ 0 → no ≠ 0 → LeavesWarp (.split inv p e j) s { c.w with
      stack := entryOf c.w epc no 1 0 :: recv :: c.w.stack, emask := yes, pc := c.w.pc + 4, wait := .none }) ∧
    (yes ≠ 0 → no = 0 → LeavesWarp (.split inv p e j) s { c.w with stack := recv :: c.w.stack, pc := c.w.pc + 4, wait := .none }) ∧
    (yes = 0 → LeavesWarp (.split inv p e j) s { c.w with stack := recv :: c.w.stack, pc := epc, wait := .none })) ∧
  (∀ i n s c, Issues i s c → pushes i c.w = some n → 32 + 8 * c.gr.lrec.spillLines < c.w.stack.length + c.w.spilled + n →
    Kills i s c 2 0 (BitVec.ofNat 32 (c.w.stack.length + c.w.spilled)) 0) ∧
  (∀ i n s c, Issues i s c → pushes i c.w = some n → c.w.stack.length = 32 → 32 + c.w.spilled + n ≤ 32 + 8 * c.gr.lrec.spillLines →
    let j := c.w.spilled
    (spillFails s c j true → Kills i s c 3 0 (spillInfo c j) (BitVec.ofNat 32 (4 * (j % 8)))) ∧
    (spillAt c j + 16 ≤ 2 ^ 52 → pageWord s c (spillAt c j) = none → LeavesWarp i s { c.w with wait := .probe c.gr.asid (spillAt c j) }) ∧
    (∀ w, spillAt c j + 16 ≤ 2 ^ 52 → pageWord s c (spillAt c j) = some w → pageAllows w true →
      s.privRoom c.g.core c.gr.asid (spillAt c j) = false → LeavesWarp i s { c.w with wait := .room c.gr.asid (spillAt c j) })) ∧
  (∀ off s c w last, Issues (.call off) s c → c.w.stack.length = 32 → c.w.spilled < 8 * c.gr.lrec.spillLines → c.w.stack.getLast? = some last →
    last.bad = false → spillAt c c.w.spilled % 16 = 0 → spillAt c c.w.spilled + 16 ≤ 2 ^ 52 → pageWord s c (spillAt c c.w.spilled) = some w →
    pageAllows w true → s.privRoom c.g.core c.gr.asid (spillAt c c.w.spilled) = true →
    ∃ t, exec (.call off) s = .next t ∧ t = { s with warps := t.warps, cores := t.cores, clusters := t.clusters, slices := t.slices } ∧
      t.warps = s.warps.set s.cur { c.w with
        stack := entryOf c.w (c.w.pc + 4) c.w.emask 3 0 :: c.w.stack.dropLast, spilled := c.w.spilled + 1, pc := branchTo c.w.pc off, wait := .none } ∧
      ∀ k, k < 4 → t.privRead c.g.core c.gr.asid (spillAt c c.w.spilled + 4 * k) 4 = ((spillWord last k).toNat, 0))

/-- R43, R45, R46, R187, R188, R196, R387: RET, JOIN and RTT pop an entry of their kind and restore PC, EMASK and FMT from it; with entries
spilled the next one is read back from its four words, after the check of its page; a fill that fails or returns poison kills the warp. -/
def Obligations.PopsRestore : Prop :=
  ∀ i kinds, (i, kinds) ∈ [(Instr.ret, [3]), (Instr.join, [1, 2]), (Instr.rtt, [(4 : Nat)])] →
    ∀ s c e rest, Issues i s c → c.w.stack = e :: rest → e.kind.toNat ∈ kinds → e.bad = false →
      (c.w.spilled = 0 → LeavesWarp i s (popped c.w e rest)) ∧
      (0 < c.w.spilled → rest.length < 32 →
        let j := c.w.spilled - 1
        (∀ w, spillAt c j + 16 ≤ 2 ^ 52 → pageWord s c (spillAt c j) = some w → pageAllows w false →
          (∀ k, k < 4 → (s.privRead c.g.core c.gr.asid (spillAt c j + 4 * k) 4).2 = 0) →
          ∃ t, exec i s = .next t ∧ t = { s with warps := t.warps, cores := t.cores, clusters := t.clusters, slices := t.slices } ∧
            t.warps = s.warps.set s.cur { popped c.w e (rest ++ [spilledEntry s c j]) with spilled := j, trapAt := trapAtWith c.w (rest.length + 1 + j) }) ∧
        (spillAt c j + 16 ≤ 2 ^ 52 → pageWord s c (spillAt c j) = none → LeavesWarp i s { c.w with wait := .probe c.gr.asid (spillAt c j) }) ∧
        (spillFails s c j false ∨ (∃ w, spillAt c j + 16 ≤ 2 ^ 52 ∧ pageWord s c (spillAt c j) = some w ∧ pageAllows w false ∧
            ∃ k, k < 4 ∧ (s.privRead c.g.core c.gr.asid (spillAt c j + 4 * k) 4).2 ≠ 0) →
          Kills i s c 3 0 (spillInfo c j) (BitVec.ofNat 32 (4 * (j % 8)))))

/-- R387, R386, R397: a pop that meets an empty stack, an entry of another kind or one with an uncorrectable error kills the warp. -/
def Obligations.BadPopsKill : Prop :=
  ∀ i kinds, (i, kinds) ∈ [(Instr.ret, [3]), (Instr.join, [1, 2]), (Instr.rtt, [(4 : Nat)])] →
    ∀ s c, Issues i s c →
      (c.w.stack = [] → Kills i s c 2 0 0 0) ∧
      (∀ e rest, c.w.stack = e :: rest → e.kind.toNat ∉ kinds ∨ e.bad = true → Kills i s c 2 0 (BitVec.ofNat 32 (c.w.stack.length + c.w.spilled))
        (BitVec.ofNat 32 (e.cause.toNat * 2 ^ 24 + e.kind.toNat * 2 ^ 20 + e.pc.toNat / 2 ^ 32)))

/-- R191, R387: EXIT takes the active lanes out of every entry, drops entries left with no lane, and pops the first that remains; with none
left the warp ends, here with nothing spilled. With entries spilled it waits for the page of their words, and a failing check kills
the warp. -/
def Obligations.ExitLeavesOrEnds : Prop :=
  (∀ s c, Issues .exit s c → c.w.spilled = 0 → (∀ x ∈ c.w.stack, x.bad = false) →
    let left := (c.w.stack.map fun (e : StackEntry) => { e with mask := e.mask &&& ~~~c.w.emask }).dropWhile fun e => e.mask == 0
    (∀ e rest, left = e :: rest → 1 ≤ e.kind.toNat → e.kind.toNat ≤ 4 → LeavesWarp .exit s (popped c.w e rest)) ∧
    (left = [] → ∃ t, exec .exit s = .next t ∧ (t.warps[s.cur]?).map Warp.status = some .ended ∧ t.mem = s.mem ∧
      ((∃ j x, j ≠ s.cur ∧ s.warps[j]? = some x ∧ x.wg = c.w.wg ∧ x.status = .running) →
        (∀ j, j ≠ s.cur → t.warps[j]? = s.warps[j]?) ∧ t.ops = s.ops))) ∧
  (∀ s c j, Issues .exit s c → j < c.w.spilled →
    (∀ k, k < j → ∃ w, spillAt c k + 16 ≤ 2 ^ 52 ∧ pageWord s c (spillAt c k) = some w ∧ pageAllows w true) →
    (spillFails s c j true → Kills .exit s c 3 0 (spillInfo c j) (BitVec.ofNat 32 (4 * (j % 8)))) ∧
    (spillAt c j + 16 ≤ 2 ^ 52 → pageWord s c (spillAt c j) = none → LeavesWarp .exit s { c.w with wait := .probe c.gr.asid (spillAt c j) }))

/-- R192, R194: TRAP enters the handler with cause 0x40 + code and resume address PC + 4, once no result for s62 or s63 is outstanding. -/
def Obligations.TrapEntersTheHandler : Prop :=
  ∀ code s c, Issues (.trap code) s c → handler0 c ≠ 0 → unmasked c.w → hasRoom c 1 →
    (trapWordsFree s s.cur → LeavesWarp (.trap code) s (trapped c.w (handler0 c) (0x40 + code.val) (c.w.pc + 4))) ∧
    (¬trapWordsFree s s.cur → LeavesWarp (.trap code) s { c.w with wait := .score })

/-- R376 to R380: a trap cause met by an instruction with traps masked, with handler entry 0 empty, or beyond the stack's capacity kills the
warp: TRAP, TFENCE with handler entry 0 empty or the stack full, and every hardware cause; the error log's record holds the trap cause. -/
def Obligations.TrapsThatCannotEnterKill : Prop :=
  (∀ code s c info, Issues (.trap code) s c → cannotTrap c info → Kills (.trap code) s c 4 (0x40 + code.val) info c.w.emask) ∧
  (∀ s c info, Issues .tfence s c → (∀ o ∈ s.ops, o.warp = s.cur → o.flagsLater = false) → unmasked c.w → cannotTrap c info →
    let t := (c.w.aflags.toNat &&& c.w.aflags.toNat / 2 ^ 16) % 2 ^ 7
    t ≠ 0 → Kills .tfence s c 4 (0x80 + t) info c.w.emask) ∧
  (∀ i s c cause info, Issues i s c → TrapsWith i s c cause → cannotTrap c info → Kills i s c 4 cause info c.w.emask)

/-- R195: with no operation left that sets flags, TFENCE traps on the flags set and enabled with cause 0x80 + t, and retires when there
is none or traps are masked. -/
def Obligations.TfenceTrapsOnFlags : Prop :=
  ∀ s c, Issues .tfence s c → (∀ o ∈ s.ops, o.warp = s.cur → o.flagsLater = false) →
    let t := (c.w.aflags.toNat &&& c.w.aflags.toNat / 2 ^ 16) % 2 ^ 7
    (t ≠ 0 → unmasked c.w → handler0 c ≠ 0 → hasRoom c 1 → trapWordsFree s s.cur → LeavesWarp .tfence s (trapped c.w (handler0 c) (0x80 + t) (c.w.pc + 4))) ∧
    (t = 0 ∨ ¬unmasked c.w → LeavesWarp .tfence s (goesOn c.w 4))

/-- R157, R167, R168, R169: a word that is illegal in its warp, or whose first word is no instruction, passes as a no-operation of its
length in mode 0 with EMASK = 0, and else kills the warp with a record of its PC, its first word and EMASK. -/
def Obligations.IllegalWordsPassOrKill : Prop :=
  (∀ i s c, i.isWord = true → s.issuer = some c → legalAt i c.w c.gr = false →
    (c.gr.lrec.legal = false → c.w.emask = 0 → LeavesWarp i s (goesOn c.w (4 * (encode i).length))) ∧
    (c.gr.lrec.legal = true ∨ c.w.emask ≠ 0 → Kills i s c 1 0 (BitVec.ofNat 32 ((encode i).headD 0)) c.w.emask)) ∧
  (∀ w s c, s.issuer = some c →
    (c.gr.lrec.legal = false → c.w.emask = 0 → LeavesWarp (.illegalFirstWord w) s (goesOn c.w (4 * frameLen w.toNat))) ∧
    (c.gr.lrec.legal = true ∨ c.w.emask ≠ 0 → Kills (.illegalFirstWord w) s c 1 0 w c.w.emask))

/-! ### Memory instructions at issue -/

/-- R40, R107, R109, R111, R133, R134, R146, R221 to R227: a lane memory instruction with no acting lane only advances the PC; with acting
lanes whose addresses pass their checks it enters as one operation, with each lane's accesses: one, or one for each private word, at
the addresses of R107 and R109, with the bytes a store writes and the words it sends; it waits while its produce key is CLOSED. -/
def Obligations.LaneMemoryIssues : Prop :=
  ∀ i m f s c, memOf i = some (m, f) → Issues i s c →
    let ls := actingLanes c.w m.grd
    (ls = [] → LeavesWarp i s (goesOn c.w (lmBytes m))) ∧
    (ls ≠ [] → canProduce c.w m.prod → (∀ l ∈ ls, laneReady s c f m l) →
      ∃ acc : Nat → List Access, Enters i s s c (lmBytes m) (.mem f.act f.d f.size f.signed false) f.sc m.prod m.cons (ls.flatMap acc) ∧
        ∀ l ∈ ls, LaneSends s c f m l (acc l)) ∧
    (ls ≠ [] → m.prod ≠ 15 → (c.w.keys.getD m.prod {}).st = .closed → LeavesWarp i s { c.w with wait := .closedKey m.prod })

/-- R183, R184: SLD and SST, their address passing its checks, enter as one operation of one access, with no key. -/
def Obligations.ScalarMemoryIssues : Prop :=
  ∀ i a off f s c, scalarMemOf i = some (a, off, f) → Issues i s c →
    let sum := scalarAddr c.w a off
    globalCause s c f sum = none → ¬mustProbe s c f sum →
    Enters i s s c (if off.isSome then 8 else 4) (.mem f.act f.d f.size f.signed true) f.sc 15 15 [scalarAccess s c f sum]

/-- R376, R377, R378, R379, R192: an access that fails a check is not made: the instruction traps at its own PC with the cause of the
lowest acting lane that fails, and waits where that lane's page has still to be probed. -/
def Obligations.MemoryChecksTrap : Prop :=
  (∀ i m f s c l, memOf i = some (m, f) → f.space = .global → Issues i s c → canProduce c.w m.prod → l ∈ actingLanes c.w m.grd →
    (∀ k ∈ actingLanes c.w m.grd, k < l → laneReady s c f m k) →
    (∀ cause, globalCause s c f (laneSumOf c.w m l) = some cause → canTrap s c → LeavesWarp i s (trapped c.w (handler0 c) cause c.w.pc)) ∧
    (mustProbe s c f (laneSumOf c.w m l) → LeavesWarp i s { c.w with wait := .probe c.gr.asid (laneSumOf c.w m l) })) ∧
  (∀ i m f s c l cause, memOf i = some (m, f) → f.space = .scratch → Issues i s c → canProduce c.w m.prod → l ∈ actingLanes c.w m.grd →
    (∀ k ∈ actingLanes c.w m.grd, k < l → laneReady s c f m k) → scratchCause c f (laneOffOf c.w m l) = some cause → canTrap s c →
    LeavesWarp i s (trapped c.w (handler0 c) cause c.w.pc)) ∧
  (∀ i m f s c l, memOf i = some (m, f) → f.space = .priv → Issues i s c → canProduce c.w m.prod → l ∈ actingLanes c.w m.grd →
    (∀ k ∈ actingLanes c.w m.grd, k < l → laneReady s c f m k) →
    let x := laneOffOf c.w m l
    (∀ cause, privCause c f x = some cause → canTrap s c → LeavesWarp i s (trapped c.w (handler0 c) cause c.w.pc)) ∧
    (∀ n, privCause c f x = none → n < privWords f → (∀ k, k < n → privWordOk s c f x l k) →
      (2 ^ 52 ≤ privWordVa c x l n → canTrap s c → LeavesWarp i s (trapped c.w (handler0 c) 0x14 c.w.pc)) ∧
      (∀ w cause, privWordVa c x l n < 2 ^ 52 → pageWord s c (privWordVa c x l n) = some w → pageCause f w = some cause → canTrap s c →
        LeavesWarp i s (trapped c.w (handler0 c) cause c.w.pc)) ∧
      (privWordVa c x l n < 2 ^ 52 → pageWord s c (privWordVa c x l n) = none →
        LeavesWarp i s { c.w with wait := .probe c.gr.asid (privWordVa c x l n) }))) ∧
  (∀ i a off f s c, scalarMemOf i = some (a, off, f) → Issues i s c →
    (∀ cause, globalCause s c f (scalarAddr c.w a off) = some cause → canTrap s c → LeavesWarp i s (trapped c.w (handler0 c) cause c.w.pc)) ∧
    (mustProbe s c f (scalarAddr c.w a off) → LeavesWarp i s { c.w with wait := .probe c.gr.asid (scalarAddr c.w a off) }))

/-! ### Keys, splices, barriers, pools, roles -/

/-- R133, R136 to R140, R230 to R232: KFORK and KJOIN replace a key's set, KREL releases a key, KWAIT and KALL retire once every member
has performed at their scope, dropping the die's remote lines at pkg and sys, and else wait.
The model's choice in it: log entry 16. -/
def Obligations.KeysAndWaits : Prop :=
  (∀ (d a : Fin 16) s c, Issues (.kfork d a) s c → d = 15 ∨ (keySetOf c.w a).length ≤ 4095 →
    LeavesWarp (.kfork d a) s { goesOn c.w 4 with keys := keysWith c.w d (keySetOf c.w a) }) ∧
  (∀ (d a b : Fin 16) s c, Issues (.kjoin d a b) s c → d = 15 ∨ (keySetOf c.w a).length + (keySetOf c.w b).length ≤ 4095 →
    ∃ ms, LeavesWarp (.kjoin d a b) s { goesOn c.w 4 with keys := keysWith c.w d ms } ∧
      ∀ m, m ∈ ms ↔ m ∈ keySetOf c.w a ∨ m ∈ keySetOf c.w b) ∧
  (∀ (d : Fin 16) s c, Issues (.krel d) s c →
    ∃ ks : List KeyEntry, LeavesWarp (.krel d) s { goesOn c.w 4 with keys := ks } ∧ ks.length = c.w.keys.length ∧
      ∀ j e, c.w.keys[j]? = some e → ks[j]? = some (if j = d.val ∧ e.st = .opened then
        { e with st := if e.set = [] then .idle else .closed } else e)) ∧
  (∀ (a : Fin 16) sc s c, Issues (.kwait a sc) s c →
    let drops := a.val ≠ 15 ∧ 4 ≤ sc.code
    (allPerformed s c (keySetOf c.w a) sc → ∃ t, exec (.kwait a sc) s = .next t ∧ t.warps = s.warps.set s.cur (goesOn c.w 4) ∧
      t = { s with ops := t.ops, warps := t.warps, cores := t.cores, clusters := t.clusters } ∧ t.ops.length = s.ops.length ∧
      (¬drops → t = withWarp s (goesOn c.w 4)) ∧ (drops → noRemoteLines t (coreDie c.g.core))) ∧
    (¬allPerformed s c (keySetOf c.w a) sc → ∃ far, Waits (.kwait a sc) s c (.kwait a sc far))) ∧
  (∀ sc s c, Issues (.kall sc) s c →
    let ms := (List.range 15).flatMap fun k => keySetOf c.w k
    let s' := s.drainCore c.g.core
    (allPerformed s' c ms sc → ∃ t, exec (.kall sc) s = .next t ∧ t.warps = s.warps.set s.cur (goesOn c.w 4) ∧
      t = { s with ops := t.ops, warps := t.warps, cores := t.cores, clusters := t.clusters } ∧ t.ops.length = s.ops.length ∧
      (sc.code < 4 → t.cores = s.cores ∧ t.clusters = s.clusters) ∧ (4 ≤ sc.code → noRemoteLines t (coreDie c.g.core))) ∧
    (¬allPerformed s' c ms sc → Waits (.kall sc) s c (.kall sc)))

/-- R141, R235, R237: KSEND sends its key's members with the wider scope in one message, or waits while its die's store holds 64;
KRECV moves the oldest splice into the lowest idle candidate key with its receipt word, and KRECV.try reports that none is there.
The model's choice in it: log entry 15. -/
def Obligations.SplicesAtIssue : Prop :=
  (∀ (a : Fin 16) (b : Fin 64) sc s c, Issues (.ksend a b sc) s c →
    let t := c.w.sreg b
    let h := c.w.sreg (b.val + 1)
    let d := coreDie c.g.core
    (64 ≤ s.spliceStore d → LeavesWarp (.ksend a b sc) s { c.w with wait := .spliceStore }) ∧
    (s.spliceStore d < 64 → s.senderReason c false t h sc = none →
      ∃ m : Msg, ∃ ms : List Member, exec (.ksend a b sc) s = .next { withWarp s (goesOn c.w 4) with msgs := s.msgs ++ [m] } ∧
        m.body = .splice ms (BitVec.ofNat 8 (bitsAt h 20 8)) ∧ m.tgt = t ∧ m.tgthi = h ∧ m.sc = sc ∧ m.asid = c.gr.asid ∧ m.die = d ∧
        m.core = c.g.core ∧ m.warp = some s.cur ∧ m.stage = .held ∧ ms.length = (keySetOf c.w a).length ∧
        ∀ (k : Nat) (x : Member), (keySetOf c.w a)[k]? = some x → ∃ (y : Member) (v : Scope), ms[k]? = some y ∧ y.op = x.op ∧ y.chip = x.chip ∧ y.via = some v ∧
          v.code = max sc.code ((x.via.map Scope.code).getD 0)) ∧
    (s.spliceStore d < 64 → bitsAt h 0 20 ≠ c.gr.lrec.gridNo → c.gr.lrec.ngrid ≤ bitsAt h 0 20 →
      ∃ u, exec (.ksend a b sc) s = .next u ∧ u.warps = s.warps.set s.cur (goesOn c.w 4) ∧ u.msgs = s.msgs ∧
        u = { s with warps := u.warps, mgmt := u.mgmt })) ∧
  (∀ i (d a : Fin 64) try_, (i, try_) ∈ [(Instr.krecv d a, false), (Instr.krecvTry d a, true)] → ∀ s c, Issues i s c → c.w.Shaped →
    let mask := if (c.w.sreg a).toNat % 2 ^ 15 = 0 then 0x7FFF else (c.w.sreg a).toNat % 2 ^ 15
    let free := fun (j : Nat) => j < 15 ∧ mask.testBit j = true ∧ (c.w.keys.getD j {}).st = .idle
    (∀ q rest j, c.w.recvq = q :: rest → free j → (∀ k, k < j → ¬free k) → q.set.length ≤ 4095 →
      ∃ p : BitVec 64, LeavesWarp i s { goesOn c.w 4 with recvq := rest, keys := keysWith c.w j q.set, sPsn := p
                                                          s := c.w.s.set d (BitVec.ofNat 32 (q.sc.code * 2 ^ 24 + q.tag.toNat * 2 ^ 16 + j)) } ∧
        ∀ r, r < 64 → p.getLsbD r = (if r = d.val then false else c.w.sPsn.getLsbD r)) ∧
    (c.w.recvq = [] ∨ (∀ j, ¬free j) →
      if try_ then WritesScalar i s c.w 4 d 0x80000000 false else LeavesWarp i s { c.w with wait := .krecv }))

/-- R239, R240, R242, R148: BINIT, arrivals, and BWAIT by the parity of the phase; an arrival at a barrier with MEMBERS = 0 traps with
cause 0x02. -/
def Obligations.Barriers : Prop :=
  (∀ (d : Fin 16) (a : Fin 64) s c, Issues (.binit d a) s c →
    exec (.binit d a) s = .next { withWarp s (goesOn c.w 4) with
      wgs := s.wgs.set c.w.wg { c.g with bars := c.g.bars.set d { members := (c.w.sreg a).toNat % 256 } } }) ∧
  (∀ i (d a : Fin 16) leave, (i, leave) ∈ [(Instr.barr d a, false), (Instr.barrLeave d a, true)] → ∀ s c, Issues i s c → d.val < c.g.bars.length →
    let b := c.g.bars.getD d {}
    (b.members ≠ 0 → ∃ b', exec i s = .next { withWarp s (goesOn c.w 4) with wgs := s.wgs.set c.w.wg { c.g with bars := c.g.bars.set d b' } } ∧
      arrived b b' (keySetOf c.w a) leave) ∧
    (b.members = 0 → canTrap s c → LeavesWarp i s (trapped c.w (handler0 c) 0x02 (c.w.pc + 4)))) ∧
  (∀ (d a : Fin 16) par s c, Issues (.bwait d a par) s c →
    let b := c.g.bars.getD d {}
    (decide (b.phase % 2 = 1) = par → a = 15 ∨ b.last.length ≤ 4095 →
      LeavesWarp (.bwait d a par) s { goesOn c.w 4 with keys := keysWith c.w a (if b.phase = 0 then [] else b.last) }) ∧
    (decide (b.phase % 2 = 1) ≠ par → LeavesWarp (.bwait d a par) s { c.w with wait := .bwait d par }))

/-- R246, R247, R250: MCJOIN adds the workgroup to the pool, or reports that it is enrolled, its buffer word bad, or the pool full, in this
order; MCLEAVE of a workgroup that is no member reports the pool's counters; of a member it withdraws it: the directory and the open
holds lose it, its MCLDs in them complete, and the pool's status word comes back. -/
def Obligations.PoolMembership : Prop :=
  (∀ (d a b : Fin 64) (pool : Fin 16) s c, Issues (.mcjoin d a b pool) s c → pool.val < c.gr.pools.length →
    let i := Instr.mcjoin d a b pool
    let p := c.gr.pools.getD pool {}
    let n := p.members.length
    let buf := c.w.sreg a
    let member := ∃ m ∈ p.members, m.wg = c.w.wg
    let bad := bitsAt buf 30 2 ≠ 0 ∨ bitsAt buf 14 2 ≠ 0 ∨ bitsAt buf 16 14 = 0 ∨
      c.gr.lrec.scr * 65536 < (bitsAt buf 0 14 + bitsAt buf 16 14) * 128
    (member → WritesScalar i s c.w 4 d (BitVec.ofNat 32 (2 ^ 29 + n)) false) ∧
    (¬member → bad → WritesScalar i s c.w 4 d (BitVec.ofNat 32 (2 ^ 30 + n)) false) ∧
    (¬member → ¬bad → 64 ≤ n → WritesScalar i s c.w 4 d (BitVec.ofNat 32 (2 ^ 31 + n)) false) ∧
    (¬member → ¬bad → n < 64 →
      let m : PoolMember := { wg := c.w.wg, base := bitsAt buf 0 14, size := bitsAt buf 16 14
                              tmo := if bitsAt (c.w.sreg b) 0 20 = 0 then 1048575 else bitsAt (c.w.sreg b) 0 20 }
      let p' : Pool := { members := p.members ++ [m], timeouts := if n = 0 then 0 else p.timeouts, discards := if n = 0 then 0 else p.discards }
      ∃ q : BitVec 64, exec i s = .next { withWarp s { goesOn c.w 4 with s := c.w.s.set d (BitVec.ofNat 32 (n + 1)), sPsn := q } with
          grids := s.grids.set c.g.grid { c.gr with pools := c.gr.pools.set pool p' } } ∧
        ∀ r, r < 64 → q.getLsbD r = (if r = d.val then false else c.w.sPsn.getLsbD r))) ∧
  (∀ (d : Fin 64) (pool : Fin 16) s c, Issues (.mcleave d pool) s c →
    let p := c.gr.pools.getD pool {}
    (¬∃ m ∈ p.members, m.wg = c.w.wg) →
    WritesScalar (.mcleave d pool) s c.w 4 d (BitVec.ofNat 32 (2 ^ 31 + p.timeouts * 2 ^ 16 + p.discards * 2 ^ 8 + p.members.length)) false) ∧
  (∀ (d : Fin 64) (pool : Fin 16) s c m, Issues (.mcleave d pool) s c → c.w.Shaped → m ∈ (c.gr.pools.getD pool {}).members → m.wg = c.w.wg →
    let p := c.gr.pools.getD pool {}
    let mine := fun (h : Hold) => h.grid = c.g.grid ∧ h.pool = pool.val ∧ h.isOpen = true ∧ h.free = false
    ∃ t w' gr' p', exec (.mcleave d pool) s = .next t ∧ t.warps[s.cur]? = some w' ∧ t.grids[c.g.grid]? = some gr' ∧ gr'.pools[pool.val]? = some p' ∧
      w'.pc = c.w.pc + 4 ∧ w'.wait = .none ∧ w'.v = c.w.v ∧ w'.p = c.w.p ∧ w'.aflags = c.w.aflags ∧
      w'.sreg d = BitVec.ofNat 32 (p'.timeouts * 2 ^ 16 + p'.discards * 2 ^ 8 + p'.members.length) ∧
      p'.members = p.members.filter (fun x => x.wg != c.w.wg) ∧ p'.timeouts = p.timeouts ∧
      (∀ h ∈ t.holds, mine h → c.w.wg ∉ h.awaited ∧ ∀ i ∈ h.included ++ h.queued, s.wgOf i ≠ c.w.wg) ∧
      (∀ h ∈ s.holds, mine h → ∀ i ∈ h.included ++ h.queued, ∀ o, s.ops[i]? = some o → o.wg = c.w.wg → completed t i) ∧
      ((∀ h ∈ s.holds, h.isOpen = true → h.free = true) → (∀ j ∈ s.jobs, j.fills = []) →
        p'.discards = min 255 p.discards ∧ t.ops = s.ops ∧ t.holds.length = s.holds.length ∧
        ∀ r, r ≠ d.val → w'.sreg r = c.w.sreg r) ∧
      t.mem = s.mem ∧ t.cores = s.cores ∧ t.clusters = s.clusters ∧ t.mgmt = s.mgmt)

/-- R52, R53, R54, R257: ROLE with all lanes active and an empty stack takes its descriptor at once where the registers allow, what a shrink
gives up counting as freed in this clk, else waits in the workgroup's queue; else it traps with cause 0x01. GROW_GRANT gives the oldest waiting warp its descriptor, and
GROW_FAIL lets it go on with its predicate cleared, when no live warp can make room. -/
def Obligations.Roles : Prop :=
  (∀ (d n : Fin 8) s c ds, Issues (.role d n) s c → c.gr.lrec.descs[n.val]? = some ds → c.w.Shaped → c.w.emask = BitVec.allOnes 32 →
    c.w.stack = [] → c.w.spilled = 0 →
    (ds.allot ≤ c.w.allot ∨ (c.g.growQ = [] ∧ ds.allot - c.w.allot ≤ freeRegs s c.w.wg c.gr.lrec) →
      ∃ w', exec (.role d n) s = .next { withWarp s w' with
          wgs := s.wgs.set c.w.wg { c.g with freed := c.g.freed + (c.w.allot - ds.allot) } } ∧ inRole c.w w' ds n d) ∧
    (c.w.allot < ds.allot → c.g.growQ ≠ [] ∨ freeRegs s c.w.wg c.gr.lrec < ds.allot - c.w.allot → (∀ q ∈ c.g.growQ, q.warp ≠ s.cur) →
      exec (.role d n) s = .next { withWarp s { c.w with wait := .grow } with
        wgs := s.wgs.set c.w.wg { c.g with growQ := c.g.growQ ++ [{ warp := s.cur, desc := n, pd := d }] } })) ∧
  (∀ (d n : Fin 8) s c, Issues (.role d n) s c → c.w.emask ≠ BitVec.allOnes 32 ∨ c.w.stack ≠ [] ∨ c.w.spilled ≠ 0 → canTrap s c →
    LeavesWarp (.role d n) s (trapped c.w (handler0 c) 0x01 (c.w.pc + 4))) ∧
  (∀ j s g q rest w gr ds, s.wgs[j]? = some g → g.growQ = q :: rest → s.warps[q.warp]? = some w → s.grids[g.grid]? = some gr →
    gr.lrec.descs[q.desc]? = some ds → w.Shaped →
    (ds.allot - w.allot ≤ freeRegs s j gr.lrec →
      ∃ w', exec (.growGrant j) s = .next { s with warps := s.warps.set q.warp w', wgs := s.wgs.set j { g with growQ := rest } } ∧
        inRole w w' ds q.desc q.pd) ∧
    (freeRegs s j gr.lrec < ds.allot - w.allot → (∀ k x, s.warps[k]? = some x → x.wg = j → x.status = .running → ∃ y ∈ g.growQ, y.warp = k) →
      exec (.growFail j) s = .next { s with wgs := s.wgs.set j { g with growQ := rest }
                                            warps := s.warps.set q.warp { goesOn w 4 with p := if q.pd = 7 then w.p else w.p.set q.pd 0 } }))

/-! ### Operations of the network, engines -/

/-- R199, R248, R251, R253, R256: MCLD, AMSEND, NRED, LAUNCH and TIME read their operands at issue and enter as operations of their
produce key, an NRED of a poisoned value marked; AMSEND adds its message, LAUNCH an entry in a queue of four. A bad NRED control word answers REFUSED in s(y), a COUNT of 0
EMPTY with the identity of .add; an AMSEND to a GRID at or above %ngrid completes discarded.
The model's choices in it: log entries 29 and 30. -/
def Obligations.NetworkOperationsIssue : Prop :=
  (∀ (x y : Fin 64) (pool k cn : Fin 16) off s c, Issues (.mcld x y pool k cn off) s c → canProduce c.w k →
    Enters (.mcld x y pool k cn off) s s c (withLit off) (.mcld (scalarAddr c.w x off) y (c.w.sreg y) pool) (scopeOr .wg (bitsAt (c.w.sreg y) 4 3)) k cn []) ∧
  (∀ (x y : Fin 64) (h k cn : Fin 16) s c, Issues (.amsend x y h k cn) s c → canProduce c.w k →
    let i := Instr.amsend x y h k cn
    let t := c.w.sreg x
    let hi := c.w.sreg (x.val + 1)
    let sc := scopeOr .sys (bitsAt hi 28 3)
    let pay := (List.range 8).map fun n => c.w.sreg (y.val + n)
    (s.senderReason c true t hi sc = none → ∃ m : Msg, ∃ snd : Word,
      Enters i s { s with msgs := s.msgs ++ [m] } c 4 (.amsend t hi h pay) sc k cn [] ∧
      m.body = .active h pay snd (BitVec.ofNat 32 c.gr.lrec.gridNo) ∧ m.op = some s.ops.length ∧ m.warp = some s.cur ∧ m.asid = c.gr.asid ∧
      m.die = coreDie c.g.core ∧ m.core = c.g.core ∧ m.tgt = t ∧ m.tgthi = hi ∧ m.sc = sc ∧ m.stage = .held) ∧
    (bitsAt hi 0 20 ≠ c.gr.lrec.gridNo → c.gr.lrec.ngrid ≤ bitsAt hi 0 20 → ∃ u, exec i s = .next u ∧
      (u.ops[s.ops.length]?).map Op.status = some .complete ∧ u.msgs.length = s.msgs.length ∧ u.mem = s.mem ∧
      (u.warps[s.cur]?).map Warp.pc = some (c.w.pc + 4))) ∧
  (∀ (x y : Fin 64) z (k cn : Fin 16) tmo s c, Issues (.nred x y z k cn tmo) s c → canProduce c.w k →
    let i := Instr.nred x y z k cn tmo
    let ctl := c.w.sreg y
    let good := bitsAt ctl 24 8 = 0 ∧ ctl.getLsbD 19 = false ∧ (bitsAt ctl 16 3 = 3 ∨ bitsAt ctl 16 3 = 4)
    let val := BitVec.ofNat 64 ((c.w.sreg x).toNat + (if z = .addI64 then 2 ^ 32 * (c.w.sreg (x.val + 1)).toNat else 0))
    let op := opEntered s c (.nred z x y ctl val (if tmo.getD 0 = 0 then 65536 else (tmo.getD 0).toNat)) (if bitsAt ctl 16 3 = 3 then .die else .pkg) cn []
    let bad := z ≠ .arrive ∧ (c.w.sPsn.getLsbD x = true ∨ (z = .addI64 ∧ c.w.sPsn.getLsbD (x.val + 1) = true))
    (good → bitsAt ctl 0 16 ≠ 0 → (¬bad → EntersAs i s s c (withLit tmo) op k cn) ∧ (bad → EntersAs i s s c (withLit tmo) { op with psn := true } k cn)) ∧
    (c.w.Shaped → ¬good ∨ bitsAt ctl 0 16 = 0 → ∃ u w, exec i s = .next u ∧ u.warps[s.cur]? = some w ∧ w.pc = c.w.pc + BitVec.ofNat 52 (withLit tmo) ∧
      u.mem = s.mem ∧ (u.ops[s.ops.length]?).map Op.status = some .complete ∧
      (¬good → w.sreg y = 4 ∧ ∀ r, r ≠ y.val → w.sreg r = c.w.sreg r) ∧
      (good → w.sreg y = 2 ∧ (z = .addI32 → x ≠ y → w.sreg x = 0)))) ∧
  (∀ (x : Fin 64) sc (k cn : Fin 16) s c, Issues (.launch x sc k cn) s c → canProduce c.w k →
    let i := Instr.launch x sc k cn
    let addr := (c.w.sreg x).toNat + 2 ^ 32 * (c.w.sreg (x.val + 1)).toNat
    (c.g.launchQ.length < 4 →
      Enters i s { s with wgs := s.wgs.set c.w.wg { c.g with launchQ := c.g.launchQ ++ [{ addr := addr, op := s.ops.length }] } } c 4
        (.launch addr) sc k cn []) ∧
    (4 ≤ c.g.launchQ.length → LeavesWarp i s { c.w with wait := .launch })) ∧
  (∀ (d : Fin 64) s c, Issues (.time d) s c → Enters (.time d) s s c 4 (.time d) .wg 15 15 [])

/-- R260, R261, R262, R277: an engine command reads its scalar registers and FMT at issue and enters its queue, of 32 matrix and scan
commands or 64 copy commands, and waits while the queue is full; a matrix or scan command issued with lanes inactive traps with
cause 0x01. -/
def Obligations.EngineCommandsIssue : Prop :=
  (∀ i k cn n cmd s c, matrixOf i = some (k, cn, n, cmd) → Issues i s c →
    (c.w.emask = BitVec.allOnes 32 → canProduce c.w k → queuedOn s c.g.core false < 32 →
      Enters i s s c n (.cmd (cmd c.w)) .wg k cn []) ∧
    (c.w.emask = BitVec.allOnes 32 → canProduce c.w k → 32 ≤ queuedOn s c.g.core false → LeavesWarp i s { c.w with wait := .queueFull }) ∧
    (c.w.emask ≠ BitVec.allOnes 32 → canTrap s c → LeavesWarp i s (trapped c.w (handler0 c) 0x01 (c.w.pc + BitVec.ofNat 52 n)))) ∧
  (∀ i k cn n kind x y off gp s c, copyOf i = some (k, cn, n, kind, x, y, off, gp) → Issues i s c → canProduce c.w k →
    (queuedOn s c.g.core true < 64 →
      Enters i s s c n (.cmd (.copy kind (copyArgs c.w x y off gp))) (copyScope (copyArgs c.w x y off gp)) k cn []) ∧
    (64 ≤ queuedOn s c.g.core true → LeavesWarp i s { c.w with wait := .queueFull }))

/-- R238, R409, R124: KSTEAL enters a promotion as an operation; one whose victim no workgroup of the grid is performs at once, with a
record. The promotion covers every unfinished global store that has performed at wg scope on the victim's core when it reaches it, of
whatever workgroup; the core's buffer drains and its L1 gives up its global lines; the promotion performs as far as those stores have. -/
def Obligations.StealPromotes : Prop :=
  (∀ (d : Fin 16) (a : Fin 64) sc s c, Issues (.ksteal d a sc) s c → canProduce c.w d →
    let t := c.w.sreg a
    (∀ j, s.victim c t sc = .ok j → Enters (.ksteal d a sc) s s c 4 (.steal (some j) []) sc d 15 []) ∧
    (bitsAt t 16 16 ≠ 0 → ∃ u, exec (.ksteal d a sc) s = .next u ∧ u.warps = s.warps.set s.cur (goesOn (produces c.w d s.ops.length) 4) ∧
      u = { s with warps := u.warps, ops := u.ops, mgmt := u.mgmt } ∧ (u.ops[s.ops.length]?).map Op.status = some .performed)) ∧
  (∀ i s o v g, s.ops[i]? = some o → o.kind = .steal (some v) [] → o.status = .issued → s.wgs[v]? = some g → g.status ≠ .evicted →
    ∃ u stores, exec (.stealPromotion i) s = .next u ∧ u = { s with ops := u.ops, cores := u.cores } ∧
      u.ops[i]? = some { o with kind := .steal (some v) stores, status := .started, acc := (u.ops.getD i o).acc } ∧
      (g.started = false → stores = [] ∧ u.cores = s.cores) ∧
      (g.started = true → ∀ l ∈ (u.core g.core).l1, l.isPriv = true) ∧
      (g.started = true → ∀ k, k ∈ stores ↔ ∃ p, s.ops[k]? = some p ∧ p.core = g.core ∧ p.status ≠ .complete ∧ 1 ≤ s.opLevel k ∧
        (∃ d z sg sl, p.kind = .mem .store d z sg sl) ∧ ∃ x ∈ p.acc, x.space = .global) ∧
      (s.slowQ = [] → ∀ sc : Scope, u.memberAt (coreDie o.core) { op := i } sc = true ↔
        ∀ k ∈ stores, sc.code ≤ u.opLevel k))

/-! ### Steps of the memory -/

/-- R109 to R113, R117, R119 to R123, R131, R133, R135, R145, R225, R402: the steps of loads and stores: an access whose consume snapshot holds an
unperformed member stays held; LDS and STS act on the scratchpad; private accesses act on the core's L1; a buffer line drains; a drained
store reaches the cluster cache; a load takes its bytes from the core's own copies, from the cluster cache, or goes to home; a store
reaches home, its bytes are in memory and other clusters' copies are gone; an access to an alias page is made at the canonical page, or
ends with a late failure; a response comes back; a load whose accesses are all back writes its registers; a performed operation
leaves every set.
The model's choices in it: log entries 13 and 76. -/
def Obligations.LoadsAndStoresReachHome : Prop :=
  (∀ s i j o x act, MemAccess s i j o x act → x.stage = .held → (∃ m ∈ o.snap, s.memberAt (coreDie o.core) m o.sc = false) →
    exec (.clusterCacheArrival i j) s = .next s ∧ exec (.homeRequest i j) s = .next s ∧
    (∃ t o', Happens s (.advance i j) t ∧ t = { s with ops := t.ops } ∧ t.ops[i]? = some o' ∧ o'.acc[j]? = some x ∧ o'.status = o.status) ∧
    ∃ t o', exec (.loadValueFixed i) s = .next t ∧ t.mem = s.mem ∧ t.ops[i]? = some o' ∧ o'.acc[j]? = some x) ∧
  (∀ s i j o x g, MemAccess s i j o x .store → x.space = .scratch → x.stage = .held → x.write = true → goesFreely s i o → s.wgs[o.wg]? = some g →
    Memory.wf g.scratch = true →
    ∃ g' : Workgroup, Happens s (.advance i j) { s with ops := opsWith s i o j { x with stage := .done }, wgs := s.wgs.set o.wg g' } ∧
      g' = { g with scratch := g'.scratch, scrPsn := g'.scrPsn } ∧ ∀ a, Memory.get g'.scratch a = storedByte g.scratch x.va x a) ∧
  (∀ s i j o x g, MemAccess s i j o x .load → x.space = .scratch → x.stage = .held → x.write = false → goesFreely s i o → s.wgs[o.wg]? = some g →
    ∃ p, Happens s (.advance i j) { s with ops := opsWith s i o j { x with stage := .done, data := BitVec.ofNat 128 (Memory.getN g.scratch x.va x.size), psn := p } }) ∧
  (∀ s i j o x g, MemAccess s i j o x .store → x.space = .priv → x.isAlias = false → x.stage = .held → x.write = true → goesFreely s i o →
    s.wgs[o.wg]? = some g → g.core < s.cores.length → x.va % 4 + x.size ≤ 4 → s.privRoom g.core x.asid x.va = true →
    ∃ t, Happens s (.advance i j) t ∧
      t = { s with ops := opsWith s i o j { x with stage := .done }, cores := t.cores, clusters := t.clusters, slices := t.slices } ∧
      ∀ b, b < x.size → (t.privByte g.core x.asid (x.va + b)).1 = BitVec.ofNat 8 (x.data.toNat / 256 ^ b)) ∧
  (∀ s i j o x g, MemAccess s i j o x .load → x.space = .priv → x.isAlias = false → x.stage = .held → x.write = false → goesFreely s i o →
    s.wgs[o.wg]? = some g →
    ∃ t v p, Happens s (.advance i j) t ∧
      t = { s with ops := opsWith s i o j { x with stage := .done, data := v, psn := p }, cores := t.cores, clusters := t.clusters, slices := t.slices } ∧
      (x.size ≤ 16 → valueOf x.size (fun b => (s.privByte g.core x.asid (x.va + b)).1) v)) ∧
  (∀ s i j o x, MemAccess s i j o x .store → x.space = .global → x.isAlias = false → x.stage = .held → goesFreely s i o →
    (∀ p ∈ s.ops, p.core = o.core → ∀ b ∈ p.acc, b.stage ≠ .wcb) →
    ∃ t, Happens s (.advance i j) t ∧ t = { s with ops := opsWith s i o j { x with stage := .wcb, stamp := s.stamp }, stamp := s.stamp + 1, cores := t.cores }) ∧
  (∀ k asid line s, ∃ t, exec (.wcbIdleDrain k asid line) s = .next t ∧ t = { s with ops := t.ops } ∧ t.ops.length = s.ops.length ∧
    ∀ (i : Nat) (o : Op), s.ops[i]? = some o → t.ops[i]? = some (if o.core = k then
      { o with acc := o.acc.map fun x => if x.stage = .wcb ∧ x.asid = asid ∧ x.va / 128 = line then { x with stage := .drained } else x } else o)) ∧
  (∀ s i j o x, MemAccess s i j o x .store → x.space = .global → x.isAlias = false → x.stage = .drained →
    oldest s (· = o.core) [.wcb, .drained] x → (x.first = true ∨ ∀ p ∈ s.ops, p.core = o.core → ∀ b ∈ p.acc, b.stage = .drained → b.first = false) →
    ∃ t, exec (.clusterCacheArrival i j) s = .next t ∧
      t = { s with ops := opsWith s i o j { x with stage := .atCl, stamp := s.stamp }, stamp := s.stamp + 1, cores := t.cores, clusters := t.clusters }) ∧
  (∀ s i o d z sg x bs, s.ops[i]? = some o → o.kind = .mem .load d z sg false → o.aux = [] → o.status = .issued → o.acc = [x] → x.stage = .held →
    x.space = .global → x.isAlias = false → x.late = false → x.size ≤ 16 → goesFreely s i o → mayHit o x → noStoresAt s (· = o.core) [.wcb, .drained] →
    (∀ b, b < x.size → cacheByte (s.core o.core).l1 x.asid (x.va + b) = some (bs b, false)) →
    ∃ t o' v, exec (.loadValueFixed i) s = .next t ∧ t = { s with ops := t.ops, warps := t.warps } ∧ t.ops[i]? = some o' ∧ o'.status = .performed ∧
      o'.acc = [{ x with stage := .done, data := v, psn := 0 }] ∧ valueOf x.size bs v) ∧
  (∀ s i j o x bs, MemAccess s i j o x .load → x.space = .global → x.isAlias = false → x.stage = .held → x.size ≤ 16 → goesFreely s i o → mayHit o x →
    noStoresAt s (· = o.core) [.wcb, .drained] →
    (∀ b, b < x.size → cacheByte (s.cluster (coreCl o.core)).cache x.asid (x.va + b) = some (bs b, false)) →
    ∃ v, exec (.clusterCacheArrival i j) s = .next { s with ops := opsWith s i o j { x with stage := .fetched, data := v, psn := 0, fromCl := true } } ∧
      valueOf x.size bs v) ∧
  (∀ s i j o x, MemAccess s i j o x .load → x.space = .global → x.isAlias = false → x.stage = .held → goesFreely s i o →
    (¬mayHit o x ∨ (noStoresAt s (· = o.core) [.wcb, .drained] ∧ ∃ b, b < x.size ∧ cacheByte (s.cluster (coreCl o.core)).cache x.asid (x.va + b) = none)) →
    exec (.clusterCacheArrival i j) s = .next { s with ops := opsWith s i o j { x with stage := .atCl } }) ∧
  (∀ s i j o x key asid va, s.MemOk → MemAccess s i j o x .store → x.space = .global → x.isAlias = false → x.stage = .atCl → s.noCounter i x = false →
    oldest s (fun k => coreCl k = coreCl o.core) [.wcb, .drained, .atCl] x → s.place x.asid x.va = .here key asid va →
    clearWay s (coreDie o.core) (homeDie va) →
    ∃ t, exec (.homeRequest i j) s = .next t ∧ WrittenHome s t key asid va x (some (coreCl o.core)) ∧
      t = { s with ops := opsWith s i o j { x with stage := .done }, mem := t.mem, memPsn := t.memPsn, slices := t.slices
                   cores := t.cores, clusters := t.clusters }) ∧
  (∀ s i j o x key asid va, MemAccess s i j o x .load → x.space = .global → x.stage = .atCl → x.isAlias = false → s.noCounter i x = false →
    (mayHit o x ∨ ∀ p ∈ s.ops.take i, p.warp ≠ o.warp) → s.place x.asid x.va = .here key asid va → clearWay s (coreDie o.core) (homeDie va) →
    ∃ t v p, exec (.homeRequest i j) s = .next t ∧ t = { s with ops := opsWith s i o j { x with stage := .fetched, data := v, psn := p }, slices := t.slices } ∧
      (noStoresAt s (fun k => coreCl k = coreCl o.core) [.wcb, .drained, .atCl] →
        (∀ b, b < x.size → s.place x.asid (x.va + b) = .here (key + b) asid (va + b)) → v = BitVec.ofNat 128 (Memory.getN s.mem key x.size))) ∧
  (∀ s i j o x act key asid va, s.MemOk → MemAccess s i j o x act → act = .store ∨ act = .load → x.space = .global → x.isAlias = true → x.stage = .held →
    goesFreely s i o → s.noCounter i x = false → s.place x.asid x.va = .here key asid va → clearWay s (coreDie o.core) (homeDie x.va) →
    clearWay s (homeDie x.va) (homeDie va) →
    (pageAllows (s.probeWord x.asid x.va) (act == .store) → ∃ t, exec (.homeRequest i j) s = .next t ∧
      (act = .store → WrittenHome s t key asid va x none ∧ t = { s with
          ops := opsWith s i o j { x with stage := .done }, mem := t.mem, memPsn := t.memPsn, slices := t.slices, remap := t.remap, cores := t.cores, clusters := t.clusters }) ∧
      (act = .load → ∃ p, t = { s with
        ops := opsWith s i o j { x with stage := .fetched, data := BitVec.ofNat 128 (Memory.getN s.mem key x.size), psn := p },
        slices := t.slices, remap := t.remap })) ∧
    (¬pageAllows (s.probeWord x.asid x.va) (act == .store) → ∃ t o' x', exec (.homeRequest i j) s = .next t ∧ t = { s with ops := t.ops, mgmt := t.mgmt } ∧
      t.ops[i]? = some o' ∧ o'.acc[j]? = some x' ∧ x'.stage = .done ∧ x'.late = true)) ∧
  (∀ s i j o x act, MemAccess s i j o x act → x.stage = .fetched → s.linkHeld (homeDie x.va) (coreDie o.core) = false →
    ∃ t, exec (.responseArrival i j) s = .next t ∧
      t = { s with ops := opsWith s i o j { x with stage := .done }, cores := t.cores, clusters := t.clusters } ∧
      (act ≠ .load → t.cores = s.cores ∧ t.clusters = s.clusters)) ∧
  (∀ s i o d z sg w, s.ops[i]? = some o → o.kind = .mem .load d z sg false → o.aux = [] → o.status = .issued → s.warps[o.warp]? = some w →
    w.status = .running → w.Shaped → d + (z + 3) / 4 ≤ w.v.length → (∀ g, s.wgs[o.wg]? = some g → g.status ≠ .evicted) →
    (∀ x ∈ o.acc, x.stage = .done ∧ x.part = 0 ∧ x.size = z ∧ x.psn = 0 ∧ x.late = false) → (o.acc.map Access.lane).Nodup →
    ∃ v : List LaneReg, exec (.loadValueFixed i) s = .next { s with ops := s.ops.set i { o with aux := [1], status := .performed }
                                                                    warps := s.warps.set o.warp { w with v := v } } ∧
      v.length = w.v.length ∧ ∀ r l, l < 32 →
        (∀ x ∈ o.acc, x.lane = l → d ≤ r → r < d + (z + 3) / 4 → ({ w with v := v }).vreg r l = loadedWord z sg x.data.toNat (r - d)) ∧
        ((∀ x ∈ o.acc, x.lane ≠ l) ∨ r < d ∨ d + (z + 3) / 4 ≤ r → ({ w with v := v }).vreg r l = w.vreg r l)) ∧
  (∀ s i o d z sg sl act, s.ops[i]? = some o → o.kind = .mem act d z sg sl → o.status = .performed → s.heldQueue i = false →
    ∃ t, exec (.operationComplete i) s = .next t ∧
      t = { s with ops := s.ops.set i { o with status := .complete }, warps := t.warps, wgs := t.wgs, msgs := t.msgs, slowQ := t.slowQ } ∧ leftSets t i)

/-- R125 to R128, R226, R227: a held ATOM or RED goes to its cluster's combining buffer, with the lanes of its address as one request; a combining
buffer's request goes to the home unit; the oldest request of the unit is applied at home as
one step: contributions in order for ATOM and RED, compare and store for ATOMCAS; the word's other bytes stay, and no copy of it is left on
the home die; a request waits while an earlier one of its grain is there.
The model's choices in it: log entries 8 and 9. -/
def Obligations.AtomicsApplyAtHome : Prop :=
  (∀ s i o x op c, s.ops[i]? = some o → o.acc = [x] → (∃ d z sg sl, o.kind = .mem (.red op) d z sg sl ∨ o.kind = .mem (.atom op) d z sg sl) →
    x.space = .global → x.isAlias = false → x.stage = .held → goesFreely s i o → homeDie x.va = coreDie o.core →
    s.clusters[coreCl o.core]? = some c → c.combine = [] → (∀ chip a v, s.place x.asid x.va ≠ .foreign chip a v) →
    ∃ t r, Happens s (.advance i 0) t ∧ t = { s with ops := opsWith s i o 0 { x with stage := .remote }
                                                     clusters := s.clusters.set (coreCl o.core) { c with combine := [r] } } ∧
      r.asid = x.asid ∧ r.va = x.va ∧ r.act.aop? = some op ∧ r.cas = none ∧ r.contribs = [{ op := i, acc := 0, x := BitVec.ofNat 32 x.data.toNat }]) ∧
  (∀ s cl c n r, s.clusters[cl]? = some c → c.combine[n]? = some r →
    exec (.combineWindowExpiry cl n) s = .next { s with clusters := s.clusters.set cl { c with combine := c.combine.eraseIdx n }, atomQ := s.atomQ ++ [r] }) ∧
  (∀ s r rest key asid va op, s.MemOk → s.atomQ = r :: rest → s.onAlias r.asid r.va = false → s.place r.asid r.va = .here key asid va →
    clearWay s (r.cluster / 16) (homeDie va) → Marks.read s.memPsn key 4 = 0 → r.cas = none → (r.act = .atom op ∨ r.act = .red op) → op ≠ .fadd →
    ∃ t, exec (.atomicRequest 0) s = .next t ∧
      t = { s with atomQ := rest, mem := t.mem, memPsn := t.memPsn, slices := t.slices, ops := t.ops, warps := t.warps, cores := t.cores, clusters := t.clusters } ∧
      Memory.getN t.mem key 4 = ((r.contribs.map Contrib.x).foldl (aopOf op) (BitVec.ofNat 32 (Memory.getN s.mem key 4))).toNat ∧
      (∀ a, a < key ∨ key + 4 ≤ a → Memory.get t.mem a = Memory.get s.mem a) ∧
      (∀ k c, t.cores[k]? = some c → coreDie k = homeDie va → noCopy c.l1 asid va) ∧
      (∀ n c, t.clusters[n]? = some c → n / 16 = homeDie va → noCopy c.cache asid va) ∧
      (∀ x o y, r.contribs = [x] → s.ops[x.op]? = some o → o.acc[x.acc]? = some y →
        ∃ o' y', t.ops[x.op]? = some o' ∧ o'.acc[x.acc]? = some y' ∧ y'.data = BitVec.ofNat 128 (Memory.getN s.mem key 4) ∧ y'.psn = 0)) ∧
  (∀ s r rest key asid va z cmp new, s.MemOk → s.atomQ = r :: rest → s.onAlias r.asid r.va = false → s.place r.asid r.va = .here key asid va →
    clearWay s (r.cluster / 16) (homeDie va) → Marks.read s.memPsn key z = 0 → r.cas = some (z, cmp, new) → z = 4 ∨ z = 8 →
    ∃ t, exec (.atomicRequest 0) s = .next t ∧
      t = { s with atomQ := rest, mem := t.mem, memPsn := t.memPsn, slices := t.slices, ops := t.ops, cores := t.cores, clusters := t.clusters } ∧
      (Memory.getN s.mem key z = cmp.toNat → Memory.getN t.mem key z = new.toNat % 2 ^ (8 * z) ∧
        ∀ a, a < key ∨ key + z ≤ a → Memory.get t.mem a = Memory.get s.mem a) ∧
      (Memory.getN s.mem key z ≠ cmp.toNat → t.mem = s.mem)) ∧
  (∀ s i r q, s.atomQ[i]? = some r → q ∈ s.atomQ.take i → q.asid = r.asid → q.va = r.va → exec (.atomicRequest i) s = .next s)

/-- R115, R116, R118, R401, R403: a probe's reply enters the core's access check buffer, for an alias page with the canonical page's permissions; a
probe of a page without a frame asks for one; the frame of a page that an access has asked for comes from the head of its die's free
list, is set to zeros, and enters the page's entry, or is awaited with a record while the list is empty; a mapping change drops the
page from every access check buffer, remap filter and cache and writes its entry.
The model's choices in it: log entries 10 and 11. -/
def Obligations.TranslationSteps : Prop :=
  (∀ s k c asid va key ca cva p, s.place asid va = .here key ca cva → clearWay s (coreDie k) (homeDie va) → clearWay s (homeDie va) (homeDie cva) →
    s.cores[k]? = some c → s.walk asid va = some p → p.v = true →
    ∃ t e rest, exec (.acbProbeReply k asid va) s = .next t ∧ t = { s with cores := s.cores.set k { c with acb := e :: rest }, warps := t.warps } ∧
      e.asid = asid ∧ e.covers asid va = true ∧ rest.length ≤ 511 ∧ (∀ x ∈ rest, x ∈ c.acb) ∧
      (p.isAlias = false → e.word0 = p.w0) ∧
      (p.isAlias = true → p.cChip = s.chip → ∀ q, s.walk p.cAsid (p.cPage * 2 ^ 16 + (va - p.base)) = some q → q.valid = true → q.isAlias = false →
        ∀ n, n < 32 → e.word0.getLsbD n = (p.w0.getLsbD n && ((n != 25 && n != 26) || q.w0.getLsbD n))) ∧
      ∀ (i : Nat) (x : Warp), s.warps[i]? = some x → ∃ y, t.warps[i]? = some y ∧ (y = x ∨ y = { x with wait := .none })) ∧
  (∀ s k asid va ca cva e, s.place asid va = .alloc ca cva → s.walk ca cva = some e →
    ∃ t, exec (.acbProbeReply k asid va) s = .next t ∧ t = { s with frameWant := t.frameWant } ∧ (ca, e.base) ∈ t.frameWant ∧
      ∀ x, x ≠ (ca, e.base) → (x ∈ t.frameWant ↔ x ∈ s.frameWant)) ∧
  (∀ s asid va ca cva e, s.MemOk → s.place asid va = .alloc ca cva → s.walk ca cva = some e → (ca, e.base) ∈ s.frameWant →
    let d := homeDie cva
    let n := if e.lg then 1 else 0
    let size := if e.lg then 2 ^ 21 else 2 ^ 16
    let head := s.reg (flHead d n)
    let frame := (Memory.word s.mem (physKey d (bitsAt (s.reg (flBase d n)) 0 24 * 2 ^ 16 + 4 * (head.toNat % 2 ^ 22)))).toNat % 2 ^ 24
    (head ≠ s.reg (flTail d n) →
      ∃ t, exec (.frameAllocation asid va) s = .next t ∧
        t = { s with mem := t.mem, memPsn := t.memPsn, mgmt := t.mgmt, slices := t.slices, frameLogged := t.frameLogged, frameWant := t.frameWant } ∧
        (ca, e.base) ∉ t.frameWant ∧ t.reg (flHead d n) = head + 1 ∧
        (Memory.word t.mem e.key).getLsbD 24 = false ∧ (Memory.word t.mem (e.key + 4)).toNat % 2 ^ 24 = frame ∧
        ∀ a, a < e.key ∨ e.key + 8 ≤ a → Memory.get t.mem a = (if physKey d (frame * 2 ^ 16) ≤ a ∧ a < physKey d (frame * 2 ^ 16) + size then 0 else Memory.get s.mem a)) ∧
    (head = s.reg (flTail d n) → ∃ t, exec (.frameAllocation asid va) s = .next t ∧ t = { s with mgmt := t.mgmt, frameLogged := t.frameLogged } ∧
      (ca, e.base) ∈ t.frameLogged ∧ ((ca, e.base) ∈ s.frameLogged → t = s))) ∧
  (∀ s asid va ca cva e, s.place asid va = .alloc ca cva → s.walk ca cva = some e → (ca, e.base) ∉ s.frameWant → exec (.frameAllocation asid va) s = .next s) ∧
  (∀ s asid va entry leaf, s.MemOk → s.leafTable asid va = some leaf → (entry.getD 0 0).getLsbD 27 = false → (∀ e, s.walk asid va = some e → e.lg = false) →
    s.pageBusy asid (va / 2 ^ 16 * 2 ^ 16) (2 ^ 16) = false →
    let page := va / 2 ^ 16
    let key := leaf + 16 * (page % 2 ^ 17)
    let hadFrame := ∃ e, s.walk asid va = some e ∧ e.v = true ∧ e.isAlias = false ∧ e.za = false
    let keeps := (entry.getD 0 0).getLsbD 24 = false ∧ (entry.getD 0 0).getLsbD 30 = false ∧ hadFrame
    ∃ t, exec (.mappingChange asid va entry false) s = .next t ∧
      t = { s with mem := t.mem, memPsn := t.memPsn, cores := t.cores, clusters := t.clusters, remap := t.remap, slices := t.slices } ∧
      (∀ c ∈ t.cores, (∀ e ∈ c.acb, ¬(e.asid = asid ∧ e.page = page)) ∧ ∀ l ∈ c.l1, ¬(l.asid = asid ∧ l.line / 512 = page)) ∧
      (∀ c ∈ t.clusters, ∀ l ∈ c.cache, ¬(l.asid = asid ∧ l.line / 512 = page)) ∧ (∀ l ∈ t.slices, ¬(l.asid = asid ∧ l.line / 512 = page)) ∧
      (∀ r ∈ t.remap, r.asid = asid → r.base + r.size ≤ page * 2 ^ 16 ∨ page * 2 ^ 16 + 2 ^ 16 ≤ r.base) ∧
      Memory.word t.mem key = entry.getD 0 0 ∧ Memory.word t.mem (key + 8) = entry.getD 2 0 ∧ Memory.word t.mem (key + 12) = entry.getD 3 0 ∧
      (∀ n, n < 32 → 24 ≤ n → (Memory.word t.mem (key + 4)).getLsbD n = (entry.getD 1 0).getLsbD n) ∧
      (keeps → ∀ e, s.walk asid va = some e → (Memory.word t.mem (key + 4)).toNat % 2 ^ 24 = e.frame) ∧
      (¬keeps → (Memory.word t.mem (key + 4)).toNat % 2 ^ 24 = 0) ∧
      ((∀ c ∈ s.cores, c.l1 = []) → (∀ c ∈ s.clusters, c.cache = []) → (∀ l ∈ s.slices, ¬(l.asid = asid ∧ l.line / 512 = page)) →
        ∀ a, a < key ∨ key + 16 ≤ a → Memory.get t.mem a = Memory.get s.mem a)) ∧
  (∀ s asid va entry release leaf, s.leafTable asid va = some leaf → (entry.getD 0 0).getLsbD 27 = false → (∀ e, s.walk asid va = some e → e.lg = false) →
    s.pageBusy asid (va / 2 ^ 16 * 2 ^ 16) (2 ^ 16) = true → exec (.mappingChange asid va entry release) s = .next s)

/-! ### Engines and rings -/

/-- R262 to R264, R267 to R276, R97, R98, R104, R105: a matrix or scan command leaves its queue when its snapshot has performed and nothing it
names is in use, and reads its slots; one that is refused raises NV and completes; at its end it has the effect of its rule on tile
slots, B slots, the scratchpad and the carry register.
The model's choices in it: log entries 17 and 22. -/
def Obligations.MatrixCommandsRun : Prop :=
  (∀ s i o cmd g gr w, Queued s i o cmd g gr → (∀ k a, cmd ≠ .copy k a) → o.snap = [] → enginesFree s i o →
    cmd.refused (viewOf g) gr.lrec = false → s.warps[o.warp]? = some w →
    ∃ caps : Captured, exec (.engineCommandStart i) s = .next { s with ops := s.ops.set i { o with status := .started, caps := caps } } ∧
      caps.view g w = (g, w)) ∧
  (∀ s i o cmd g gr w, Queued s i o cmd g gr → (∀ k a, cmd ≠ .copy k a) → enginesFree s i o → cmd.refused (viewOf g) gr.lrec = true →
    s.warps[o.warp]? = some w → w.status = .running →
    ∃ t, exec (.engineCommandStart i) s = .next t ∧ completed t i ∧ (t.ops[i]?).map Op.refusal = some true ∧
      (t.warps[o.warp]?).map Warp.aflags = some (w.aflags ||| 1) ∧ t = { s with ops := t.ops, warps := t.warps, wgs := t.wgs, msgs := t.msgs }) ∧
  (∀ s i o cmd g w, s.ops[i]? = some o → o.kind = .cmd cmd → (∀ k a, cmd ≠ .copy k a) → o.status = .started → s.wgs[o.wg]? = some g →
    s.warps[o.warp]? = some w → (∀ p ∈ s.ops.take i, p.wg = o.wg → p.status = .performed ∨ p.status = .complete) →
    (∀ p ∈ s.ops.drop (i + 1), p.wg = o.wg → p.status ≠ .complete) → o.caps.view g w = (g, w) →
    ∃ t g' w', exec (.engineCommandComplete i) s = .next t ∧ completed t i ∧ t.mem = s.mem ∧ t.cores = s.cores ∧ t.grids = s.grids ∧
      t.wgs[o.wg]? = some g' ∧ t.warps[o.warp]? = some w' ∧ w'.pc = w.pc ∧ w'.v = w.v ∧ w'.s = w.s ∧ w'.emask = w.emask ∧ w'.stack = w.stack ∧
      (o.hits = [] → wellFormedSlots g → MatrixEffect cmd g w g' w'))

/-- R51, R287 to R290: RINIT sets up a ring or traps with cause 0x03; an acquisition takes the next free or filled slot at once, or waits
in its queue, from which it is granted in order; a commit and a release give the slot back, and trap with cause 0x03 where it is not
held.
The model's choice in it: log entry 14. -/
def Obligations.RingsPassSlots : Prop :=
  (∀ (x : Fin 8) (y : Fin 64) s c, Issues (.rinit x y) s c → x.val < c.g.rings.length →
    let w0 := c.w.sreg y
    let w2 := c.w.sreg (y.val + 1)
    let n := bitsAt w0 26 6 + 1
    let base := bitsAt w0 0 21
    let slotb := bitsAt w2 0 21
    let good := 2 ≤ n ∧ bitsAt w0 21 5 = 0 ∧ base % 4 = 0 ∧ bitsAt w2 21 11 = 0 ∧ slotb % 4 = 0 ∧ 4 ≤ slotb ∧ c.w.sreg (y.val + 2) = 0 ∧
      base + n * slotb ≤ c.gr.lrec.scr * 65536
    (good → ∃ r : Ring, exec (.rinit x y) s = .next { withWarp s (goesOn c.w 4) with wgs := s.wgs.set c.w.wg { c.g with rings := c.g.rings.set x r } } ∧
      r.n = n ∧ r.base = base ∧ r.slotb = slotb ∧ r.free = n ∧ r.filled = 0 ∧ r.pidx = 0 ∧ r.cidx = 0 ∧ r.pph = false ∧ r.cph = false ∧
      r.oprod = 0 ∧ r.ocons = 0 ∧ r.slots = List.replicate n {}) ∧
    (¬good → canTrap s c → LeavesWarp (.rinit x y) s (trapped c.w (handler0 c) 0x03 (c.w.pc + 4)))) ∧
  (∀ i (x : Fin 8) (y : Fin 64) (k : Fin 16) consumer, (i, consumer) ∈ [(Instr.rputAcq x y k, false), (Instr.rgetAcq x y k, true)] →
    ∀ s c r, Issues i s c → c.g.rings[x.val]? = some r →
    let queue := if consumer then r.cwait else r.pwait
    let there := if consumer then r.filled else r.free
    (r.n = 0 → canTrap s c → LeavesWarp i s (trapped c.w (handler0 c) 0x03 (c.w.pc + 4))) ∧
    (r.n ≠ 0 → queue = [] → 0 < there → canProduce c.w k → (keySetOf c.w k).length + (slotSet r consumer).length ≤ 4095 →
      ∃ r' w', exec i s = .next { withWarp s w' with wgs := s.wgs.set c.w.wg { c.g with rings := c.g.rings.set x r' } } ∧ ringTaken r r' consumer ∧
        Acquires c.w w' r (nextSlot r consumer) (nextPhase r consumer) y k (slotSet r consumer)) ∧
    (r.n ≠ 0 → there = 0 ∨ queue ≠ [] → canProduce c.w k → (∀ q ∈ queue, q.warp ≠ s.cur) →
      let q : RingWait := { warp := s.cur, y := y, k := k }
      exec i s = .next { withWarp s { c.w with wait := .ringAcq x consumer } with
        wgs := s.wgs.set c.w.wg { c.g with rings := c.g.rings.set x (if consumer then { r with cwait := r.cwait ++ [q] } else { r with pwait := r.pwait ++ [q] }) } })) ∧
  (∀ i (x : Fin 8) (y : Fin 64) (k : Fin 16) consumer, (i, consumer) ∈ [(Instr.rputCmt x y k, false), (Instr.rgetRel x y k, true)] →
    ∀ s c r, Issues i s c → c.g.rings[x.val]? = some r →
    let slot := bitsAt (c.w.sreg y) 21 6
    let sl := r.slots.getD slot {}
    let held := r.n ≠ 0 ∧ slot < r.n ∧ (if consumer then sl.cacq else sl.pacq) = true
    (¬held → canTrap s c → LeavesWarp i s (trapped c.w (handler0 c) 0x03 (c.w.pc + 4))) ∧
    (held → (if consumer then r.cidx else r.pidx) < r.n → ∃ r' n, exec i s = .next { withWarp s (goesOn c.w 4) with wgs := s.wgs.set c.w.wg { c.g with rings := c.g.rings.set x r' } } ∧
      r'.n = r.n ∧ r'.base = r.base ∧ r'.slotb = r.slotb ∧
      (consumer = false → r'.filled = r.filled + n ∧ r'.pidx = (r.pidx + n) % r.n ∧ r'.oprod = r.oprod - 1 ∧ r'.free = r.free ∧
        (slot = r.pidx → 1 ≤ n) ∧ (r'.slots.getD slot {}).pacq = false ∧ (r'.slots.getD slot {}).fill = keySetOf c.w k) ∧
      (consumer = true → r'.free = r.free + n ∧ r'.cidx = (r.cidx + n) % r.n ∧ r'.ocons = r.ocons - 1 ∧ r'.filled = r.filled ∧
        (slot = r.cidx → 1 ≤ n) ∧ (r'.slots.getD slot {}).cacq = false ∧ (r'.slots.getD slot {}).free = keySetOf c.w k))) ∧
  (∀ j (x : Fin 8) consumer s g r q rest w, s.wgs[j]? = some g → g.rings[x.val]? = some r → (if consumer then r.cwait else r.pwait) = q :: rest →
    s.warps[q.warp]? = some w → 0 < (if consumer then r.filled else r.free) → g.preempt = false →
    (keySetOf w q.k).length + (slotSet r consumer).length ≤ 4095 →
    ∃ r' w', exec (.ringAcquireGrant j x consumer) s = .next { s with
        wgs := s.wgs.set j { g with rings := g.rings.set x (if consumer then { r' with cwait := rest } else { r' with pwait := rest }) }
        warps := s.warps.set q.warp w' } ∧ ringTaken r r' consumer ∧ Acquires w w' r (nextSlot r consumer) (nextPhase r consumer) q.y q.k (slotSet r consumer))

/-- R262, R264, R279 to R286, R404: a copy command whose descriptor is refused, or whose address or page fails its check, ends at once with status
REFUSED or FAULT; one whose snapshot has not performed stays in its queue; CPY, CPYS and CPYG start with one access of each word of their
spans, CPYC with the step of its version word, CPYX with the reading of its table; a word of a load direction lands in the
scratchpad of its workgroup and of every receiver, a word of a store direction in memory; CPYC's words follow a version that
matches, and then its second step, and it ends MISMATCH with the version found otherwise; CPYX's tokens step the counters of
their bins, are written to their slots, go to the overflow bin, or are dropped; each ends with its status, barrier and ring step.
The model's choices in it: log entries 22, 24 and 26. -/
def Obligations.CopyCommandsRun : Prop :=
  (∀ s i o k a g gr, Queued s i o (.copy k a) g gr →
    let d := coreDie o.core
    (copyRefused k a (gr.lrec.scr * 65536) = true → ∃ t, exec (.engineCommandStart i) s = .next t ∧ CopyEnds s t i o k a 3 0 0 1 none) ∧
    (copyRefused k a (gr.lrec.scr * 65536) = false → (∃ m ∈ o.snap, s.memberAt d m o.sc = false) → exec (.engineCommandStart i) s = .next s) ∧
    (copyRefused k a (gr.lrec.scr * 65536) = false → o.snap = [] →
      (2 ^ 52 ≤ a.addr → ∃ t, exec (.engineCommandStart i) s = .next t ∧ CopyEnds s t i o k a 4 (0x14 * 16) 0 0 none) ∧
      (k = .ld ∨ k = .st → a.addr + a.d1.toNat ≤ 2 ^ 52 → ∀ va c, s.spanCheck gr.asid a.addr a.d1.toNat (k == .st) false d = some (va, .fail c) →
        ∃ t, exec (.engineCommandStart i) s = .next t ∧ CopyEnds s t i o k a 4 (c * 16) 0 0 none) ∧
      (k = .ld ∨ k = .st → a.addr + a.d1.toNat ≤ 2 ^ 52 → s.spanCheck gr.asid a.addr a.d1.toNat (k == .st) false d = none → a.d3.toNat % 2 ^ 12 = 0 →
        ∃ acc : List Access, exec (.engineCommandStart i) s = .next { s with ops := s.ops.set i { o with status := .started, acc := acc, aux := [0, 0] } } ∧
          acc.length = a.d1.toNat / 4 ∧ ∀ (j : Nat) (x : Access), acc[j]? = some x →
            CopyWord o gr.asid x (a.addr + 4 * j) (a.d0.toNat + 4 * j) (k == .st)) ∧
      (k = .sld ∨ k = .sst → a.addr < 2 ^ 52 → (∀ r, r < copyRows a → a.addr + r * a.gp.toNat + copyRowb a ≤ 2 ^ 52 ∧
          s.spanCheck gr.asid (a.addr + r * a.gp.toNat) (copyRowb a) (k == .sst) false d = none) → a.d3.toNat % 2 ^ 12 = 0 →
        ∃ acc : List Access, exec (.engineCommandStart i) s = .next { s with ops := s.ops.set i { o with status := .started, acc := acc, aux := [0, 0] } } ∧
          acc.length = copyRows a * (copyRowb a / 4) ∧ ∀ (j : Nat) (x : Access), acc[j]? = some x →
            CopyWord o gr.asid x (a.addr + rowOf a j * a.gp.toNat + 4 * wordOf a j) (a.d0.toNat + rowOf a j * a.d2.toNat + 4 * wordOf a j) (k == .sst)) ∧
      (k = .g → a.addr < 2 ^ 52 →
        let index := fun r => (Memory.word g.scratch (bitsAt a.d2 0 21 + 4 * r)).toNat
        (∀ r, r < copyRows a → index r ≠ 2 ^ 32 - 1 → a.addr + index r * copyRowb a + copyRowb a ≤ 2 ^ 52 ∧
          s.spanCheck gr.asid (a.addr + index r * copyRowb a) (copyRowb a) false false d = none) →
        ∃ acc : List Access, exec (.engineCommandStart i) s = .next { s with ops := s.ops.set i { o with status := .started, acc := acc, aux := [0, 0] } } ∧
          acc.length = copyRows a * (copyRowb a / 4) ∧ ∀ (j : Nat) (x : Access), acc[j]? = some x →
            (index (rowOf a j) ≠ 2 ^ 32 - 1 →
              CopyWord o gr.asid x (a.addr + index (rowOf a j) * copyRowb a + 4 * wordOf a j) (a.d0.toNat + rowOf a j * copyRowb a + 4 * wordOf a j) false) ∧
            (index (rowOf a j) = 2 ^ 32 - 1 → x.space = .scratch ∧ x.stage = .held ∧ x.scr = a.d0.toNat + rowOf a j * copyRowb a + 4 * wordOf a j)) ∧
      (k = .x → a.addr + 16 * (bitsAt a.d2 24 8 + 2) ≤ 2 ^ 52 → s.spanCheck gr.asid a.addr (16 * (bitsAt a.d2 24 8 + 2)) false false d = none →
        ∃ acc : List Access, exec (.engineCommandStart i) s = .next { s with ops := s.ops.set i { o with status := .started, acc := acc, aux := [] } } ∧
          acc.length = 3 * (bitsAt a.d2 24 8 + 2) ∧ ∀ (j : Nat) (x : Access), acc[j]? = some x →
            x.va = a.addr + 16 * (j / 3) + 4 * (j % 3) ∧ x.size = 4 ∧ x.write = false ∧ x.asid = gr.asid ∧ x.stage = .held ∧ x.space = .global) ∧
      (k = .c → a.addr + 128 + a.d1.toNat ≤ 2 ^ 52 → s.spanCheck gr.asid a.addr 4 true true d = none →
        s.spanCheck gr.asid (a.addr + 128) a.d1.toNat true false d = none → plainPage s gr.asid a.addr →
        ∃ x r, exec (.engineCommandStart i) s = .next { s with
            ops := s.ops.set i { o with status := .started, acc := [x], aux := [0, 0] }, atomQ := s.atomQ ++ [r] } ∧
          x.va = a.addr ∧ x.part = 1 ∧ x.stage = .remote ∧ r.asid = gr.asid ∧ r.va = a.addr ∧ r.cluster = coreCl o.core ∧
          r.cas = some (4, BitVec.ofNat 64 a.d2.toNat, BitVec.ofNat 64 (a.d2 + 1).toNat) ∧ r.contribs.map Contrib.op = [i]))) ∧
  (∀ s i o k a g j x key asid va, CopyRuns s i o k a g → o.acc[j]? = some x → loadsScratch k → x.space = .global → x.stage = .held → x.write = false →
    x.isAlias = false → x.size = 4 → s.place x.asid x.va = .here key asid va → (∀ b, b < 4 → s.place x.asid (x.va + b) = .here (key + b) asid (va + b)) →
    clearWay s (coreDie o.core) (homeDie va) → noStoresAt s (fun n => coreCl n = coreCl o.core) [.wcb, .drained, .atCl] →
    ∃ t, exec (.homeRequest i j) s = .next t ∧ t = { s with ops := opsWith s i o j { x with stage := .done }, wgs := t.wgs, slices := t.slices } ∧
      ∀ h ∈ o.wg :: o.aux.drop 2, ∀ gh, s.wgs[h]? = some gh → gh.status = .running → Memory.wf gh.scratch = true →
        ∃ gh', t.wgs[h]? = some gh' ∧ Memory.word gh'.scratch x.scr = Memory.word s.mem key ∧
          ∀ b, b < x.scr ∨ x.scr + 4 ≤ b → Memory.get gh'.scratch b = Memory.get gh.scratch b) ∧
  (∀ s i o a g j x, CopyRuns s i o .g a g → o.acc[j]? = some x → x.space = .scratch → x.stage = .held → g.status = .running → Memory.wf g.scratch = true →
    o.aux.drop 2 = [] →
    ∃ g' : Workgroup, exec (.homeRequest i j) s = .next { s with ops := opsWith s i o j { x with stage := .done }, wgs := s.wgs.set o.wg g' } ∧
      Memory.word g'.scratch x.scr = 0 ∧ ∀ b, b < x.scr ∨ x.scr + 4 ≤ b → Memory.get g'.scratch b = Memory.get g.scratch b) ∧
  (∀ s i o k a g j x key asid va, s.MemOk → CopyRuns s i o k a g → o.acc[j]? = some x →
    k = .st ∨ k = .sst ∨ (k = .c ∧ x.part = 0) ∨ (k = .x ∧ bitsAt a.d1 16 16 ≤ j) → x.space = .global →
    x.stage = .held → x.write = true → x.isAlias = false → x.size = 4 → x.scrWg = o.wg → s.place x.asid x.va = .here key asid va →
    clearWay s (coreDie o.core) (homeDie va) →
    ∃ t, exec (.homeRequest i j) s = .next t ∧
      t = { s with ops := opsWith s i o j { x with stage := .done }, mem := t.mem, memPsn := t.memPsn, slices := t.slices, cores := t.cores, clusters := t.clusters } ∧
      Memory.word t.mem key = Memory.word g.scratch x.scr ∧ ∀ b, b < key ∨ key + 4 ≤ b → Memory.get t.mem b = Memory.get s.mem b) ∧
  (∀ s i o a g x, CopyRuns s i o .c a g → o.acc = [x] → x.part = 1 → x.stage = .fetched → x.space = .global →
    (x.psn = 0 → x.data.toNat % 2 ^ 32 = a.d2.toNat →
      ∃ ws : List Access, exec (.homeRequest i 0) s = .next { s with ops := s.ops.set i { o with acc := { x with stage := .done } :: ws } } ∧
        ws.length = a.d1.toNat / 4 ∧ ∀ (n : Nat) (y : Access), ws[n]? = some y →
          CopyWord o x.asid y (a.addr + 128 + 4 * n) (a.d0.toNat + 4 * n) true ∧ y.part = 0) ∧
    (x.psn = 0 → x.data.toNat % 2 ^ 32 ≠ a.d2.toNat → ∃ t, exec (.homeRequest i 0) s = .next t ∧
      CopyEnds s t i o .c a 1 0 0 0 (some (BitVec.ofNat 32 x.data.toNat))) ∧
    (x.psn ≠ 0 → ∃ t, exec (.homeRequest i 0) s = .next t ∧ CopyEnds s t i o .c a 1 0 0 0 (some 0xFFFFFFFF))) ∧
  (∀ s i o a g x l, CopyRuns s i o .c a g → o.acc.head? = some x → o.acc.getLast? = some l → (∀ y ∈ o.acc, y.stage = .done) →
    (l.part ≠ 2 → x.isAlias = false → plainPage s x.asid x.va →
      ∃ y r, exec (.copyCommandComplete i) s = .next { s with ops := s.ops.set i { o with acc := o.acc ++ [y] }, atomQ := s.atomQ ++ [r] } ∧
        y.va = x.va ∧ y.part = 2 ∧ y.stage = .remote ∧ r.asid = x.asid ∧ r.va = x.va ∧ r.act = .atom .xchg ∧ r.cas = none ∧
        r.contribs = [{ op := i, acc := o.acc.length, x := a.d2 + 2 }]) ∧
    (l.part = 2 → ∃ t, exec (.copyCommandComplete i) s = .next t ∧ CopyEnds s t i o .c a 0 0 0 0 none)) ∧
  (∀ s i o a g x0, CopyRuns s i o .x a g → o.aux = [] → o.acc.head? = some x0 → (∀ x ∈ o.acc, x.stage = .done) →
    let nb := bitsAt a.d2 24 8 + 1
    let target := fun n => min (Memory.word g.scratch (bitsAt a.d2 0 21 + 4 * n)).toNat nb
    let word := fun n => ((o.acc[n]?).map fun x => x.data.toNat % 2 ^ 32).getD 0
    (∀ e, e ≤ nb → plainPage s x0.asid (a.addr + 16 * e + 12)) →
    s.binsCheck (coreDie o.core) x0.asid a
      (((List.range (nb + 1)).filter fun e => ((List.range (copyRows a)).map target).contains e).map (binOf o.acc)) = none →
    ∃ t o', exec (.copyCommandComplete i) s = .next t ∧ t = { s with ops := s.ops.set i o', clusters := t.clusters, atomQ := t.atomQ } ∧
      o' = { o with acc := o'.acc, aux := o'.aux } ∧ o'.acc.length = copyRows a ∧ o'.aux.getD 0 0 = 0 ∧ o'.aux.getD 1 0 = 0 ∧
      (∀ e, e ≤ nb → o'.aux.getD (2 + 2 * e) 0 = word (3 * e) + 2 ^ 32 * word (3 * e + 1) ∧ o'.aux.getD (3 + 2 * e) 0 = word (3 * e + 2)) ∧
      ∀ (n : Nat) (y : Access), o'.acc[n]? = some y → y.va = a.addr + 16 * target n + 12 ∧ y.data = 1 ∧ y.stage = .remote ∧ y.part = 0 ∧
        y.scr = a.d0.toNat + n * copyRowb a) ∧
  (∀ s i o a g j x n y, CopyRuns s i o .x a g → o.aux ≠ [] → 2 ≤ o.aux.length → j < copyRows a → o.acc[j]? = some x → x.space = .global → x.stage = .fetched →
    x.psn = 0 →
    let nb := bitsAt a.d2 24 8 + 1
    let e := (x.va - a.addr) / 16
    let base := o.aux.getD (2 + 2 * e) 0
    let cap := o.aux.getD (3 + 2 * e) 0
    let slot := x.data.toNat % 2 ^ 32
    let others := n ≠ j ∧ n < copyRows a ∧ o.acc[n]? = some y ∧ y.part = 0 ∧ y.stage ≠ .done
    (others → slot < cap → x.part = 0 →
      ∃ ws : List Access, exec (.homeRequest i j) s = .next { s with ops := s.ops.set i { o with acc := o.acc.set j { x with stage := .done } ++ ws } } ∧
        ws.length = copyRowb a / 4 ∧ ∀ (m : Nat) (z : Access), ws[m]? = some z → CopyWord o x.asid z (base + slot * copyRowb a + 4 * m) (x.scr + 4 * m) true) ∧
    (others → cap ≤ slot → x.part = 0 → e < nb →
      exec (.homeRequest i j) s = .next { s with ops := s.ops.set i { o with acc := o.acc.set j { x with stage := .held, part := 1, data := 0 }
                                                                             aux := o.aux.set 1 (o.aux.getD 1 0 + 1) } }) ∧
    (others → cap ≤ slot → x.part ≠ 0 ∨ nb ≤ e →
      exec (.homeRequest i j) s = .next { s with ops := s.ops.set i { o with acc := o.acc.set j { x with stage := .done }
                                                                             aux := o.aux.set 0 (o.aux.getD 0 0 + 1) } }) ∧
    ((∀ m z, m ≠ j → o.acc[m]? = some z → z.stage = .done) → cap ≤ slot → x.part = 0 → e < nb → (∀ z ∈ o.acc, z.asid = x.asid) →
      plainPage s x.asid (a.addr + 16 * nb + 12) →
      ∃ t o' z, exec (.homeRequest i j) s = .next t ∧ t = { s with ops := t.ops, clusters := t.clusters, atomQ := t.atomQ } ∧ t.ops[i]? = some o' ∧
        o'.acc[j]? = some z ∧ z.va = a.addr + 16 * nb + 12 ∧ z.part = 1 ∧ z.data = 1 ∧ z.stage = .remote)) ∧
  (∀ s i o k a g, CopyRuns s i o k a g → (∀ x ∈ o.acc, x.stage = .done) →
    (k = .ld ∨ k = .sld → ∃ t, exec (.copyCommandComplete i) s = .next t ∧ CopyEnds s t i o k a 0 (o.aux.getD 0 0) 0 0 none) ∧
    (k = .st ∨ k = .sst ∨ k = .g → ∃ t, exec (.copyCommandComplete i) s = .next t ∧ CopyEnds s t i o k a 0 0 0 0 none) ∧
    (k = .x → o.aux ≠ [] → ∃ t, exec (.copyCommandComplete i) s = .next t ∧
      CopyEnds s t i o k a (if o.aux.getD 0 0 = 0 ∧ o.aux.getD 1 0 = 0 then 0 else 2) (o.aux.getD 0 0) (o.aux.getD 1 0) 0 none))

/-! ### Messages, pools, reductions -/

/-- R141, R235, R236, R251, R252, R321, R326 to R328, R418: a held message of the own grid enters the fabric, or is discarded where an isolated die lies
between; an active message to another package leaves on its route; a splice enters its target's receive queue while that holds fewer than
eight; an active message enters its die's buffer and starts a handler warp with its words in s2 to s11; a completion notice is noted
once, unless its die is cut off.
The model's choices in it: log entries 31 and 91. -/
def Obligations.MessagesTravel : Prop :=
  (∀ s m x k w g gr, s.msgs[m]? = some x → x.stage = .held → x.warp = some k → x.chip = none → s.warps[k]? = some w → s.wgs[w.wg]? = some g →
    s.grids[g.grid]? = some gr → bitsAt x.tgthi 0 20 = gr.lrec.gridNo →
    (∀ i o, x.op = some i → s.ops[i]? = some o → o.snap = []) → firstToSend s x.core (some m) s.ops →
    (s.cutOff x.die (s.tgtDieOf x) = false →
      exec (.messageSend m) s = .next { s with msgs := s.msgs.set m { x with stage := .sent, sentAt := s.sends }, sends := s.sends + 1 }) ∧
    (s.cutOff x.die (s.tgtDieOf x) = true → ∃ t, exec (.messageSend m) s = .next t ∧ (t.msgs[m]?).map Msg.stage = some .gone ∧ t.mem = s.mem ∧
      t.sends = s.sends ∧ t.outbox = s.outbox ∧ ∀ i, x.op = some i → i < s.ops.length → completed t i)) ∧
  (∀ s m x k w g gr h pay snd sg n out, s.msgs[m]? = some x → x.body = .active h pay snd sg → x.stage = .held → x.warp = some k →
    s.warps[k]? = some w → s.wgs[w.wg]? = some g → s.grids[g.grid]? = some gr → bitsAt x.tgthi 0 20 ≠ gr.lrec.gridNo →
    s.placedGrid x.asid (bitsAt x.tgthi 0 20) ≠ some g.grid → x.sc = .sys →
    (∀ i o, x.op = some i → s.ops[i]? = some o → o.snap = []) → firstToSend s x.core (some m) s.ops →
    s.gangs = [(x.asid, bitsAt x.tgthi 0 20, n)] → n ≠ s.chip → (s.die x.die).isolated = false → s.linkHeld x.die 4 = false → s.route n = .group out →
    exec (.messageSend m) s = .next { s with
      msgs := s.msgs.set m { x with stage := .gone }
      outbox := { group := out, chip := n, src := s.chip, body := .active x.asid x.tgt x.tgthi x.sc h pay snd sg (x.op.getD 0), left := 1 } :: s.outbox }) ∧
  (∀ s m x set tag j i w, s.msgs[m]? = some x → x.body = .splice set tag → x.stage = .sent → x.parts = 0 → x.chip = none → x.op = none →
    s.linkHeld x.die (s.tgtDieOf x) = false →
    (∀ y ∈ s.msgs, y.stage = .sent → x.sentAt ≤ y.sentAt) → s.tgtOf x = .ok j → s.findWarp j (bitsAt x.tgt 10 6) = some i → s.warps[i]? = some w →
    (w.recvq.length < 8 → exec (.spliceArrival m) s = .next { s with
      warps := s.warps.set i { w with recvq := w.recvq ++ [{ set := set, sc := x.sc, tag := tag }] }, msgs := s.msgs.set m { x with stage := .gone } }) ∧
    (8 ≤ w.recvq.length → exec (.spliceArrival m) s = .next s)) ∧
  (∀ s m x h pay snd sg j, s.msgs[m]? = some x → x.body = .active h pay snd sg → x.stage = .sent → x.chip = none → s.linkHeld x.die (s.tgtDieOf x) = false →
    (∀ y ∈ s.msgs, y.stage = .sent → x.sentAt ≤ y.sentAt) → s.tgtOf x = .ok j →
    (s.buffered (s.tgtDieOf x) < 256 →
      exec (.activeMessageArrival m) s = .next { s with
        msgs := s.msgs.set m { x with stage := .buffered, tgtWg := some j, sentAt := s.sends }, sends := s.sends + 1 }) ∧
    (256 ≤ s.buffered (s.tgtDieOf x) → exec (.activeMessageArrival m) s = .next s)) ∧
  (∀ s m x h pay snd sg j g gr q qs, s.msgs[m]? = some x → x.body = .active h pay snd sg → x.stage = .buffered → x.tgtWg = some j →
    x.chip = none → pay.length = 8 → (∀ y ∈ s.msgs, y.stage = .buffered → x.sentAt ≤ y.sentAt) → s.wgs[j]? = some g → g.status = .running →
    s.grids[g.grid]? = some gr → (s.cluster (coreCl g.core)).dbg = .none → s.freeSlots g.core ≠ [] → s.freeHandlers j = q :: qs →
    0 < freeRegs s j gr.lrec →
    ∃ t w, exec (.handlerWarpStart m) s = .next t ∧ t.warps.length = s.warps.length + 1 ∧ t.warps[s.warps.length]? = some w ∧ w.wg = j ∧
      w.handler = some q ∧ w.slot ∈ s.freeSlots g.core ∧ w.status = .running ∧ w.pc = gr.lrec.handlers.getD h 0 ∧ w.emask = BitVec.allOnes 32 ∧ w.allot = 1 ∧
      (∀ n, n < 8 → w.sreg (2 + n) = pay.getD n 0) ∧ w.sreg 10 = snd ∧ w.sreg 11 = sg ∧ (t.msgs[m]?).map Msg.stage = some .gone ∧
      t.mem = s.mem ∧ t.wgs.length = s.wgs.length) ∧
  (∀ s (d : Fin 4) i sc o, s.ops[i]? = some o → o.status = .performed → s.heldQueue i = false → (∀ y ∈ s.msgs, y.toChip = none) →
    s.linkHeld (coreDie o.core) d = false →
    let n : Nat × Option Nat × Nat × Nat := (d.val, none, i, sc.code)
    (s.cutOff (coreDie o.core) d = false →
      exec (.completionNotice d i sc) s = .next { s with notices := if n ∈ s.notices then s.notices else n :: s.notices } ∧
      ∀ t, exec (.completionNotice d i sc) s = .next t → t.memberAt d (Member.mk i none (some sc)) sc = true) ∧
    (s.cutOff (coreDie o.core) d = true → exec (.completionNotice d i sc) s = .next s))

/-- R152, R248, R249: an MCLD of a workgroup that is no member completes REFUSED; one that finds no hold opens one with the pool's
members awaited; a hold's timer ends it with kind 2 for those included, not early, and counts in the pool; the one read takes memory's bytes; a
fill lands at its member's buffer, and its MCLD completes with the hold's kind and counts.
The model's choices in it: log entries 30 and 33. -/
def Obligations.PoolLoadsFill : Prop :=
  (∀ s i o addr y ctl pool g gr w, s.ops[i]? = some o → o.kind = .mcld addr y ctl pool → o.status = .issued → s.wgs[o.wg]? = some g →
    s.grids[g.grid]? = some gr → (∀ p ∈ s.ops.take i, p.core ≠ o.core) → (∀ m ∈ (gr.pools.getD pool {}).members, m.wg ≠ o.wg) →
    s.warps[o.warp]? = some w → w.status = .running → w.Shaped → y < 64 →
    ∃ t w', exec (.mcldArrival i) s = .next t ∧ completed t i ∧ t.warps[o.warp]? = some w' ∧ w'.sreg y = 6 ∧ t.holds = s.holds ∧ t.mem = s.mem) ∧
  (∀ s i o addr y ctl pool g gr m, s.ops[i]? = some o → o.kind = .mcld addr y ctl pool → o.status = .issued → s.wgs[o.wg]? = some g →
    s.grids[g.grid]? = some gr → (∀ p ∈ s.ops.take i, p.core ≠ o.core) → m ∈ (gr.pools.getD pool {}).members → m.wg = o.wg →
    (gr.pools.getD pool {}).members.find? (fun x => x.wg == o.wg) = some m → (∃ x ∈ (gr.pools.getD pool {}).members, x.wg ≠ o.wg) →
    s.holds = [] → bitsAt ctl 0 4 = 0 → 1 ≤ bitsAt ctl 7 9 → bitsAt ctl 7 9 ≤ 256 → 1 ≤ bitsAt ctl 4 3 → bitsAt ctl 4 3 ≤ 5 → addr % 128 = 0 →
    bitsAt ctl 16 16 + bitsAt ctl 7 9 ≤ m.size → addr < 2 ^ 52 →
    s.spanCheck gr.asid addr (128 * bitsAt ctl 7 9) false false (coreDie o.core) = none →
    ∃ h : Hold, exec (.mcldArrival i) s = .next { s with ops := s.ops.set i { o with status := .started }, holds := [h] } ∧ h.isOpen = true ∧ h.free = false ∧
      h.grid = g.grid ∧ h.pool = pool ∧ h.va = addr ∧ h.nlines = bitsAt ctl 7 9 ∧ h.included = [i] ∧ h.tmo = m.tmo ∧ h.startAt = s.now ∧
      h.awaited = (gr.pools.getD pool {}).members.map PoolMember.wg ∧ h.die = homeDie addr) ∧
  (∀ s n h gr p, s.holds[n]? = some h → h.isOpen = true → h.free = false → h.queued = [] → s.grids[h.grid]? = some gr →
    gr.pools[h.pool]? = some p → noHoldFull s n →
    let gr' : Grid := { gr with pools := gr.pools.set h.pool { p with timeouts := min 255 (p.timeouts + 1) } }
    (h.startAt + 256 * h.tmo ≤ s.now → ∃ t j, exec (.poolHoldTimeout n) s = .next t ∧
      t = { s with holds := t.holds, jobs := s.jobs ++ [j], grids := s.grids.set h.grid gr' } ∧
      j.asid = gr.asid ∧ j.va = h.va ∧ j.nlines = h.nlines ∧ j.read = false ∧ j.fills.map Fill.op = h.included ∧
      (∀ f ∈ j.fills, f.kind = 2 ∧ f.included = h.included.length ∧ f.awaited = h.awaited.length) ∧ (t.holds[n]?).map Hold.isOpen = some false) ∧
    (100 * (s.now - h.startAt) < 99 * 256 * h.tmo → exec (.poolHoldTimeout n) s = .next s)) ∧
  (∀ s n j o, s.jobs[n]? = some j → j.read = false → s.ops[j.src]? = some o → o.acc = [] →
    (∀ f ∈ j.fills, ∀ x, s.ops[f.op]? = some x → x.snap = []) → s.spanCheck j.asid j.va (128 * j.nlines) false false (homeDie j.va) = none →
    (∀ i, i < 8 * j.nlines → ∃ k a v w, s.place j.asid (j.va + 16 * i) = .here k a v ∧ permCheck (s.probeWord j.asid (j.va + 16 * i)) false false = .ok w) →
    ∃ t j', exec (.poolRead n) s = .next t ∧ t = { s with jobs := s.jobs.set n j', slices := t.slices } ∧ j'.read = true ∧ j'.fills = j.fills ∧
      j'.nlines = j.nlines ∧ ∀ i k a v b, i < 8 * j.nlines → s.place j.asid (j.va + 16 * i) = .here k a v → b < 16 →
        Memory.get j'.data (16 * i + b) = Memory.get s.mem (k + b)) ∧
  (∀ s i o addr y ctl pool g gr m j f w, s.ops[i]? = some o → o.kind = .mcld addr y ctl pool → s.wgs[o.wg]? = some g → s.grids[g.grid]? = some gr →
    (gr.pools.getD pool {}).members.find? (fun x => x.wg == o.wg) = some m → s.jobs = [j] → j.read = true → j.fills = [f] → f.op = i →
    (∀ c ∈ j.data, c.1 < 128 * j.nlines) → Memory.wf j.data = true → Memory.wf g.scratch = true →
    s.warps[o.warp]? = some w → w.status = .running → w.Shaped → y < 64 →
    ∃ t w' g', exec (.poolFillLand i) s = .next t ∧ completed t i ∧ t.mem = s.mem ∧ t.warps[o.warp]? = some w' ∧ t.wgs[o.wg]? = some g' ∧
      w'.sreg y = BitVec.ofNat 32 (f.awaited * 2 ^ 24 + f.included * 2 ^ 16 + f.kind) ∧
      ∀ b, Memory.get g'.scratch b = (if 128 * (m.base + bitsAt ctl 16 16) ≤ b ∧ b < 128 * (m.base + bitsAt ctl 16 16) + 128 * j.nlines then
        Memory.get j.data (b - 128 * (m.base + bitsAt ctl 16 16)) else Memory.get g.scratch b))

/-- R199, R253 to R255, R424: a contribution opens an instance of its identity, or joins it; the one that makes COUNT completes it with status 1 for all
of them, their values combined; an instance times out with status 3, not early; its response writes the result and the status word and
completes the NRED. TIME's reply carries TIMEBASE and the die's half round trip, never goes back, and is written within 16 counts.
The model's choices in it: log entries 34, 35 and 83. -/
def Obligations.ReductionsAndTime : Prop :=
  (∀ s i o z x y ctl v tmo g, s.ops[i]? = some o → o.kind = .nred z x y ctl v tmo → o.status = .issued → s.wgs[o.wg]? = some g → o.snap = [] →
    firstToSend s o.core none (s.ops.take i) → (bitsAt ctl 16 3 = 4 → (s.die (coreDie o.core)).isolated = false ∧ s.linkHeld (coreDie o.core) 4 = false) →
    let die := if bitsAt ctl 16 3 = 3 then some (coreDie o.core) else none
    ((∀ n ∈ s.nreds, n.isOpen = false) →
      (bitsAt ctl 0 16 ≠ 1 → ∃ n : NredInst, exec (.nredContribution i) s = .next { s with
          ops := s.ops.set i { o with status := .started }, nreds := s.nreds ++ [n] } ∧
        n.isOpen = true ∧ n.grid = g.grid ∧ n.id = bitsAt ctl 20 4 ∧ n.count = bitsAt ctl 0 16 ∧ n.ops = [i] ∧ n.startAt = s.now ∧ n.tmo = tmo ∧ n.z = z ∧
        n.die = die) ∧
      (bitsAt ctl 0 16 = 1 → z = .addI32 → ∃ t, exec (.nredContribution i) s = .next t ∧ t = { s with ops := t.ops, nreds := t.nreds, warps := t.warps } ∧
        t.ops[i]? = some { o with status := .started, aux := [v.toNat % 2 ^ 32, 0x10001] } ∧ ∀ n ∈ t.nreds, n.isOpen = false)) ∧
    (∀ k n, s.nreds[k]? = some n → n.isOpen = true → n.grid = g.grid → n.die = die → n.id = bitsAt ctl 20 4 → n.count < 2 ^ 16 →
      (∀ m q, s.nreds[m]? = some q → q.isOpen = true → q.grid = n.grid → q.die = n.die → q.id = n.id → m = k) →
      (∀ j ∈ n.ops, ∃ p, s.ops[j]? = some p ∧ p.warp ≠ o.warp) →
      (n.ops.length + 1 ≠ n.count → exec (.nredContribution i) s = .next { s with
        ops := s.ops.set i { o with status := .started }, nreds := s.nreds.set k { n with ops := n.ops ++ [i] } }) ∧
      (n.ops.length + 1 = n.count → ∃ t r f, exec (.nredContribution i) s = .next t ∧
        t = { s with ops := t.ops, warps := t.warps, nreds := s.nreds.set k { n with ops := n.ops ++ [i], isOpen := false } } ∧
        NredResult n.z ((n.ops ++ [i]).map (nredGiven s)) r f ∧
        ∀ j ∈ n.ops ++ [i], ∃ p q, s.ops[j]? = some p ∧ t.ops[j]? = some q ∧ q.kind = p.kind ∧ q.aux = [r.toNat, n.count * 2 ^ 16 + 1] ∧
          ∀ w, s.warps[p.warp]? = some w → w.status = .running → (t.warps[p.warp]?).map Warp.aflags = some (w.aflags ||| f)))) ∧
  (∀ s k n i o, s.nreds[k]? = some n → n.isOpen = true → n.ops = [i] → s.ops[i]? = some o →
    (n.startAt + 256 * n.tmo ≤ s.now →
      ∃ t v, exec (.nredTimeout k) s = .next t ∧ t = { s with nreds := s.nreds.set k { n with isOpen := false }, ops := t.ops, warps := t.warps } ∧
        t.ops = s.ops.set i { o with aux := [v, 0x10003] }) ∧
    (100 * (s.now - n.startAt) < 99 * 256 * n.tmo → exec (.nredTimeout k) s = .next s)) ∧
  (∀ s i j o z x y ctl v tmo r st w, s.ops[i]? = some o → o.kind = .nred z x y ctl v tmo → o.status = .started → o.aux = [r, st] → o.acc = [] →
    s.warps[o.warp]? = some w → w.status = .running → (s.wgs[w.wg]?).map Workgroup.status ≠ some .evicted → w.Shaped → x < 64 → y < 64 → x ≠ y →
    (z = .addI64 → x + 1 < 64 ∧ y ≠ x + 1 ∧ r < 2 ^ 64) →
    ∃ t w', exec (.responseArrival i j) s = .next t ∧ completed t i ∧ t = { s with ops := t.ops, warps := t.warps, wgs := t.wgs, msgs := t.msgs } ∧
      t.warps[o.warp]? = some w' ∧ w'.sreg x = BitVec.ofNat 32 r ∧ w'.spsn x = o.psn ∧ (z = .addI64 → w'.sreg (x + 1) = BitVec.ofNat 32 (r / 2 ^ 32)) ∧
      w'.sreg y = BitVec.ofNat 32 st ∧ ∀ n, n ≠ x → n ≠ y → (z = .addI64 → n ≠ x + 1) → w'.sreg n = w.sreg n) ∧
  (∀ s i o d l, s.ops[i]? = some o → o.kind = .time d → o.status = .issued → o.aux = [] → s.links[3 * coreDie o.core]? = some l → l.failed = false →
    (l.training = false →
      exec (.timeReply i) s = .next { s with ops := s.ops.set i { o with aux := [s.tb, (s.die (coreDie o.core)).rt / 2] } }) ∧
    (l.training = true → coreDie o.core < 4 → exec (.timeReply i) s = .next s)) ∧
  (∀ s i o d b h w x, s.ops[i]? = some o → o.kind = .time d → o.status = .issued → o.aux = [b, h] → s.warps[o.warp]? = some w → w.status = .running →
    w.Shaped → d + 1 < 64 → s.dies[coreDie o.core]? = some x →
    let v := max (b + h) x.lastTime
    (v ≤ s.tb + 16 → ∃ t w', exec (.timeReply i) s = .next t ∧ completed t i ∧ t.warps[o.warp]? = some w' ∧
      t.dies = s.dies.set (coreDie o.core) { x with lastTime := v } ∧
      w'.sreg d = BitVec.ofNat 32 v ∧ w'.sreg (d + 1) = BitVec.ofNat 32 (v / 2 ^ 32) ∧ t.mem = s.mem) ∧
    (s.tb + 16 < v → exec (.timeReply i) s = .next s))

/-! ### Steps of the distributor and of the scheduler -/

/-- R155, R292 to R304: a pending-launch entry goes to the distributor; its record is read, awaited while its page or another package keeps it, and
placed grids come from it, or a refused one; candidates stand in the order of class and arrival; a grid with a START is held, placed in
time and released; its completion writes the flags, then counts.
The model's choices in it: log entries 37, 46 and 86. -/
def Obligations.GridsArePlacedStartedAndSignalled : Prop :=
  (∀ s j g e rest o gr, s.wgs[j]? = some g → g.launchQ = e :: rest → s.ops[e.op]? = some o → s.grids[g.grid]? = some gr → g.status ≠ .terminated →
    o.snap = [] → firstToSend s o.core none (s.ops.take e.op) → (s.die (coreDie g.core)).isolated = false → s.linkHeld (coreDie g.core) 4 = false →
    (64 ≤ s.devBuf → exec (.launchEntrySend j) s = .next s) ∧
    (s.devBuf < 64 →
      let c : Candidate := { src := .device e.op j, addr := e.addr, asid := gr.asid, arrival := s.now }
      ∃ m : Bytes, exec (.launchEntrySend j) s = .next { s with
          cands := s.cands ++ [c], devBuf := s.devBuf + 1, wgs := s.wgs.set j { g with launchQ := rest }, mem := m
          ops := s.ops.set e.op { o with status := .started } } ∧
        (g.status ≠ .evicted → m = s.mem))) ∧
  (∀ s n c asid addr, oldestOfSource s n c → c.lrec = none → launchAt s c asid addr → addr < 2 ^ 64 →
    (s.sysRead asid addr 84 = .wait → ∃ t, exec (.launchRecordRead n) s = .next t ∧ t.cands = s.cands ∧ t.grids = s.grids ∧ t.mem = s.mem) ∧
    (∀ ws, s.sysRead asid addr 84 = .ok ws → s.refusesRecord addr ws = false → ∃ t, exec (.launchRecordRead n) s = .next t ∧
      t = { s with devReqs := t.devReqs, cands := s.cands.set n { c with addr := addr, asid := asid, lrec := some (Record.ofWords ws) } }) ∧
    (∀ ws, s.sysRead asid addr 84 = .ok ws → s.refusesRecord addr ws = true →
      ∃ t g, exec (.launchRecordRead n) s = .next t ∧ candTaken s t n c ∧ t.grids = s.grids ++ [g] ∧ g.status = .refused ∧ g.asid = asid ∧
        g.addr = addr ∧ t.mem = s.mem ∧ ∀ op w, c.src = .device op w → op < s.ops.length → completed t op) ∧
    (s.sysRead asid addr 84 = .bad →
      ∃ t, exec (.launchRecordRead n) s = .next t ∧ candTaken s t n c ∧ t.grids = s.grids ∧ t.mem = s.mem ∧
        newestError s t 7 1 asid 0 (BitVec.ofNat 32 addr) (BitVec.ofNat 32 (addr / 2 ^ 32 % 2 ^ 20)))) ∧
  (∀ (s : State) (i j : Nat) (a b : Nat × Candidate × Record), s.ranked[i]? = some a → s.ranked[j]? = some b → i < j →
    b.2.2.gclass < a.2.2.gclass ∨ (b.2.2.gclass = a.2.2.gclass ∧ a.2.1.arrival ≤ b.2.1.arrival)) ∧
  (∀ s n c r rest, s.ranked = (n, c, r) :: rest → s.cands[n]? = some c →
    (r.start ≠ 0 → s.holdsUsed < 16 → ∃ t g, exec .distributorDecision s = .next t ∧ candTaken s t n c ∧ t.grids = s.grids ++ [g] ∧ g.lrec = r ∧
      g.status = .held ∧ g.asid = c.asid ∧ g.addr = c.addr ∧ t.wgs = s.wgs ∧ t.warps = s.warps ∧ t.mem = s.mem) ∧
    (r.start = 0 → noneBefore s r.gclass (some n) none →
      let g : Grid := { lrec := r, asid := c.asid, addr := c.addr, src := c.src, status := .placed, pools := List.replicate 16 {} }
      ∀ p, ({ s with grids := s.grids ++ [g] } : State).plan r (fun _ => false) = some p →
        ∃ t, exec .distributorDecision s = .next t ∧ candTaken s t n c ∧ t.grids = s.grids ++ [g] ∧ placedBy s t s.grids.length r p ∧ t.mem = s.mem)) ∧
  (∀ s gi g p, s.grids[gi]? = some g → g.status = .held ∨ g.status = .waiting → g.lrec.start ≤ s.tb + (s.reg 0x0060).toNat →
    noneBefore s g.lrec.gclass none (some gi) → s.plan g.lrec (fun _ => false) = some p →
    ∃ t, exec (.holdPlacement gi) s = .next t ∧ t = { s with grids := s.grids.set gi { g with status := .placed }, wgs := t.wgs, warps := t.warps, seqNo := t.seqNo } ∧
      placedBy s t gi g.lrec p) ∧
  (∀ s gi g, s.grids[gi]? = some g → g.status = .placed → g.lrec.start ≤ s.tb →
    let late := if g.lrec.start ≠ 0 ∧ g.lrec.late < s.tb - g.lrec.start then some (s.tb - g.lrec.start) else none
    let start := fun (w : Workgroup) => if w.grid = gi ∧ w.status = .placed then { w with status := .running } else w
    ∃ t, exec (.gridRelease gi) s = .next t ∧
      t = { s with wgs := s.wgs.map start, starts := s.starts + 1, ops := t.ops, cores := t.cores, clusters := t.clusters
                   grids := s.grids.set gi { g with status := .released, lateBy := late, startSeq := s.starts + 1 } } ∧
      (∀ q, g.src = .host q → t.ops = s.ops ∧ t.cores = s.cores ∧ t.clusters = s.clusters)) ∧
  (∀ s gi g k ca cva w0, s.MemOk → s.grids[gi]? = some g → g.lrec.counter % 8 = 0 → g.lrec.counter < 2 ^ 52 → (∀ r ∈ s.devReqs, r.use ≠ .signal gi) →
    ((g.status = .released ∧ (∀ w ∈ s.wgs, w.grid = gi → w.hasEnded = true) ∧
      ∀ o ∈ s.ops, (s.wgs[o.wg]?).map Workgroup.grid = some gi → o.status = .complete) ∨ g.status = .refused) →
    (g.flagged = false → s.walkCheck g.asid g.lrec.counter true true = .ok w0 → s.place g.asid (g.lrec.counter + 4) = .here k ca cva →
      Marks.read s.memPsn k 4 = 0 →
      ∃ t f, exec (.gridCompletionSignal gi) s = .next t ∧
        t = { s with grids := s.grids.set gi { g with flagged := true }, mem := t.mem, memPsn := t.memPsn, slices := t.slices
                     cores := t.cores, clusters := t.clusters } ∧
        Memory.word t.mem k = Memory.word s.mem k ||| f ∧ (∀ a, a < k ∨ k + 4 ≤ a → Memory.get t.mem a = Memory.get s.mem a) ∧
        f.getLsbD 0 = decide (g.status = .refused) ∧ f.getLsbD 1 = g.lateBy.isSome ∧ f.getLsbD 2 = g.error) ∧
    (g.flagged = true → s.place g.asid g.lrec.counter = .here k ca cva → Marks.read s.memPsn k 4 = 0 →
      ∃ t, exec (.gridCompletionSignal gi) s = .next t ∧ t.grids = s.grids.set gi { g with status := .signalled } ∧
        Memory.word t.mem k = Memory.word s.mem k + 1 ∧ (∀ a, a < k ∨ k + 4 ≤ a → Memory.get t.mem a = Memory.get s.mem a) ∧
        ∀ op w, g.src = .device op w → op < s.ops.length → completed t op))

/-- R55 to R58, R60, R80, R267, R305 to R308, R313, R382, R388, R390: a requested workgroup whose warps are all at blocking points is saved to its
die's pool, its tile occupancy and WIDE bits in word 2; a restorable one returns to a core, or is terminated where its image fails a check; a warp left unselected for more
than FAIRWIN clk is starved; the watchdog terminates pending workgroups, or gives the holder of a starved warp's slot a trap.
The model's choices in it: log entries 41, 44 and 51. -/
def Obligations.EvictionAndTheWatchdog : Prop :=
  (∀ s j g gr room, s.wgs[j]? = some g → s.grids[g.grid]? = some gr → g.status = .running → g.preempt = true → s.stopped j g = false →
    s.saveWaits j = false → (∀ w ∈ s.warps, w.wg = j → w.status = .running → w.handler = none ∧ w.masked = false ∧ w.blocked = true) →
    coreDie g.core < s.dies.length → s.saveRoom (coreDie g.core) (s.imageSize j g gr.lrec) = some room →
    ∃ t g', exec (.workgroupEvict j) s = .next t ∧ t.wgs[j]? = some g' ∧ g'.status = .evicted ∧ g'.preempt = false ∧ g'.saved = some room ∧
      g'.seq = g.seq ∧ room.die = coreDie g.core ∧ (t.die room.die).saves = room :: (s.die room.die).saves ∧ t.wgs.length = s.wgs.length ∧
      t.cands = s.cands ∧ t.outbox = s.outbox ∧
      (s.MemOk → (∀ l ∈ (s.core g.core).l1, l.dirty = 0) → ∀ a, a < physKey room.die room.base → Memory.get t.mem a = Memory.get s.mem a) ∧
      (s.MemOk → g.tiles.length = 16 → ∀ n x, g.tiles[n]? = some x →
        let v := Memory.word t.mem (physKey room.die room.base + 8)
        v.getLsbD n = x.occ ∧ v.getLsbD (16 + n) = (x.occ && x.wide))) ∧
  (∀ s j g gr room core, s.wgs[j]? = some g → s.grids[g.grid]? = some gr → g.saved = some room → s.restoreCore j = some core →
    s.restorable j = true → (∀ (i : Nat) (x : Workgroup), s.restorable i = true → s.wgs[i]? = some x → g.seq ≤ x.seq) →
    let rd := fun o => Memory.word s.mem (physKey room.die room.base + o)
    (worstOffset (imageChecks rd g gr.lrec) = none →
      ∃ t g', exec (.workgroupRestore j) s = .next t ∧ t = { s with wgs := t.wgs, warps := t.warps, dies := t.dies } ∧ t.wgs[j]? = some g' ∧
        g'.status = .running ∧ g'.core = core ∧ g'.saved = none ∧ g'.seq = g.seq ∧ room ∉ (t.die room.die).saves ∧
        (∀ (b : Nat) (x : Barrier), g.bars[b]? = some x → ∃ y, g'.bars[b]? = some y ∧ y.members = bitsAt (rd (0x40 + 16 * b)) 0 8 ∧
          y.arrived = bitsAt (rd (0x40 + 16 * b)) 8 8 ∧ y.phase = bitsAt (rd (0x40 + 16 * b)) 16 16 ∧ y.last = x.last) ∧
        (∀ n, n < 16 → ∃ x, g'.tiles[n]? = some x ∧ x.occ = (rd 8).getLsbD n ∧ x.wide = ((rd 8).getLsbD n && (rd 8).getLsbD (16 + n))) ∧
        ∀ b, b < gr.lrec.scr * 65536 → Memory.get g'.scratch b = Memory.get s.mem (physKey room.die room.base + 0x200 + b)) ∧
    (∀ off, worstOffset (imageChecks rd g gr.lrec) = some off →
      ∃ t, exec (.workgroupRestore j) s = .next t ∧ (t.wgs[j]?).map Workgroup.status = some .terminated ∧ (t.grids[g.grid]?).map Grid.error = some true ∧
        (∀ w ∈ t.warps, w.wg = j → w.status ≠ .running) ∧ t.mem = s.mem ∧
        newestError s t 6 0 gr.asid (BitVec.ofNat 52 (s.firstPc j)) (BitVec.ofNat 32 off) 0)) ∧
  (∀ s i c, s.ctxAt i = some c → s.isReady c = true → max 64 (bitsAt (s.reg (maDie (coreDie c.g.core) 0x14)) 0 16) < c.w.unsel →
    exec (.starvation i) s = .next { s with warps := s.warps.set i { c.w with starved := true } }) ∧
  (∀ s k x j g gr, s.cores[k]? = some x → s.reg (maDie (coreDie k) 0x10) ≠ 0 → (s.reg (maDie (coreDie k) 0x10)).toNat ≤ x.wd →
    s.pendingWgs k = [j] → s.wgs[j]? = some g → s.grids[g.grid]? = some gr →
    ∃ t, exec (.watchdogExpiry k) s = .next t ∧ (t.wgs[j]?).map Workgroup.status = some .terminated ∧ (t.grids[g.grid]?).map Grid.error = some true ∧
      (∀ w ∈ t.warps, w.wg = j → w.status ≠ .running) ∧ (t.cores[k]?).map Core.wd = some 0 ∧ t.mem = s.mem ∧
      newestError s t 5 0 gr.asid (BitVec.ofNat 52 (s.firstPc j)) 1 (BitVec.ofNat 32 (s.warps.countP fun w => w.wg = j ∧ w.status = .running))) ∧
  (∀ s k x wi c0 c h, s.cores[k]? = some x → s.reg (maDie (coreDie k) 0x10) ≠ 0 → (s.reg (maDie (coreDie k) 0x10)).toNat ≤ x.wd →
    s.pendingWgs k = [] → starvedLongest (s.starvedOf k) = some (wi, c0) →
    let s1 := s.refresh (coreCl k)
    s1.ctxAt wi = some c → s1.isReady c = true → s1.slotHolder c = some h → h.idx ≠ wi → canTrapAt s1 h.idx h.c →
    ∃ t, exec (.watchdogExpiry k) s = .next t ∧
      t = { s1 with warps := s1.warps.set h.idx (trapped h.c.w (handler0 h.c) 0x20 h.c.w.pc), cores := s.cores.set k { x with wd := 0 } })

/-- R346 to R349: a picked warp at an armed breakpoint does not issue, and its workgroup stops, unless it passes the breakpoint once after a resume or
the cluster holds another workgroup; a stop by command; the dump of a stopped workgroup is written where DUMPBASE says, and its STOP packet
enters the FIFO when tracing is enabled; a resume, with or without a load of the dump, lets the workgroup that DBGSEQ names go on, a step
until every warp has issued once or 4,096 clk have passed.
The model's choices in it: log entries 50 and 52. -/
def Obligations.BreakpointsStopsAndSteps : Prop :=
  (∀ s i (n : Fin 4) c x, s.ctxAt i = some c → i ∈ s.picked → c.w.psnTrap = none → s.clusters[coreCl c.g.core]? = some x →
    let cl := coreCl c.g.core
    let hits := fun (m : Nat) => (s.reg (bpLo cl m)).getLsbD 0 = true ∧
      c.w.pc.toNat = bitsAt (s.reg (bpHi cl m)) 0 20 * 2 ^ 32 + 4 * bitsAt (s.reg (bpLo cl m)) 2 30 ∧ bitsAt (s.reg (bpAsid cl m)) 0 13 = c.gr.asid
    let passes := c.w.passBp = true ∧ c.w.stalledAt = some c.w.pc
    let ws := s.warps.set i { c.w with stalledAt := some c.w.pc }
    let left := s.picked.filter fun j => j != i
    (passes → exec (.breakpointHit i n) s = .next s) ∧
    (¬passes → hits n → (∀ m, m < n.val → ¬hits m) → c.w.pc.toNat % 4 = 0 →
      (x.dbg = .none → exec (.breakpointHit i n) s = .next { s with
        picked := left, warps := ws
        clusters := s.clusters.set cl { x with dbg := .stopping, dbgWg := c.w.wg, dbgCause := 2, bpHit := [c.w.num], noStep := [] } }) ∧
      (x.dbg = .stopping → x.dbgWg = c.w.wg → exec (.breakpointHit i n) s = .next { s with
        picked := left, warps := ws, clusters := s.clusters.set cl { x with dbgCause := 2, bpHit := c.w.num :: x.bpHit } }) ∧
      (x.dbg = .stepping → x.dbgWg = c.w.wg → ∃ ns : List Nat, exec (.breakpointHit i n) s = .next { s with
          picked := left, warps := ws
          clusters := s.clusters.set cl { x with dbg := .stopping, dbgCause := 2, bpHit := [c.w.num], noStep := ns } } ∧
        ∀ m, m ∈ ns ↔ ∃ w ∈ s.warps, w.wg = x.dbgWg ∧ w.status = .running ∧ w.handler = none ∧ w.issued = false ∧ w.num = m) ∧
      (x.dbg ≠ .none → x.dbgWg ≠ c.w.wg → ∃ t, exec (.breakpointHit i n) s = .next t ∧ t = { s with mgmt := t.mgmt } ∧
        (t.reg (dbgStat cl)).getLsbD 29 = true ∧ keepsRegs s t fun ma => ma = dbgStat cl))) ∧
  (∀ s cl wi x, s.up = true → s.clusterPresent cl = true → s.namedWg cl = some wi → s.clusters[cl]? = some x →
    (x.dbg = .none →
      exec (.dbgcmdStop cl) s = .next { s with clusters := s.clusters.set cl { x with dbg := .stopping, dbgWg := wi, dbgCause := 1, bpHit := [], noStep := [] } }) ∧
    (x.dbg = .stopping ∨ x.dbg = .stopped → exec (.dbgcmdStop cl) s = .next s)) ∧
  (∀ s cl, s.namedWg cl = none → exec (.dbgcmdStop cl) s = .next s) ∧
  (∀ (s : State) (cl wi : Nat), s.namedWg cl = some wi → ∃ (g : Workgroup), s.wgs[wi]? = some g ∧ g.seq = (s.reg (dbgSeq cl)).toNat ∧ coreCl g.core = cl) ∧
  (∀ s cl x, s.up = true → s.clusterPresent cl = true → s.clusters[cl]? = some x → x.dbg = .stopped →
    (s.namedWg cl = some x.dbgWg →
      exec (.dbgcmdResume cl) s = .next { s with warps := resumed s x.dbgWg, clusters := s.clusters.set cl { x with dbg := .none, stepClk := 0 } } ∧
      exec (.dbgcmdStep cl) s = .next { s with warps := resumed s x.dbgWg, clusters := s.clusters.set cl { x with dbg := .stepping, stepClk := 0 } }) ∧
    (s.namedWg cl ≠ some x.dbgWg →
      exec (.dbgcmdResume cl) s = .next s ∧ exec (.dbgcmdStep cl) s = .next s ∧ exec (.dbgcmdResumeLoad cl) s = .next s)) ∧
  (∀ s cl x g gr, s.up = true → s.clusterPresent cl = true → s.clusters[cl]? = some x → x.dbg = .stopped → s.namedWg cl = some x.dbgWg →
    s.wgs[x.dbgWg]? = some g → s.grids[g.grid]? = some gr →
    let base := bitsAt (s.reg (dumpBaseHi cl)) 0 20 * 2 ^ 32 + (s.reg (dumpBaseLo cl)).toNat
    let size := 256 + g.warpBase gr.lrec + ((s.ordinary x.dbgWg).map fun p => warpRecord p.2).sum
    let readable := fun (p : Nat × Nat) => ∃ w0, s.walkCheck gr.asid p.1 false false (cl / 16) = .ok w0
    let refused := fun (p : Nat × Nat) => ∃ c, s.walkCheck gr.asid p.1 false false (cl / 16) = .fail c
    base + size ≤ 2 ^ 52 → s.spanAway gr.asid base size = false → s.devReqs = [] → (∀ p ∈ pagePieces base size, readable p ∨ refused p) →
    ∃ t, exec (.dbgcmdResumeLoad cl) s = .next t ∧ t = { s with warps := t.warps, clusters := s.clusters.set cl { x with dbg := .none, stepClk := 0 } } ∧
      ∀ q ∈ s.recordOffsets x.dbgWg g gr.lrec, s.warps[q.2.1]? = some q.2.2 → q.2.2.status = .running →
        let at_ := base + 256 + q.1
        let meets := fun (p : Nat × Nat) => at_ < p.1 + p.2 ∧ p.1 < at_ + warpRecord q.2.2
        let rd := fun o => homeWord s gr.asid (at_ + o)
        ((∀ p ∈ pagePieces base size, meets p → readable p) →
          ∃ w, t.warps[q.2.1]? = some w ∧ w.pc = q.2.2.pc ∧ w.emask = q.2.2.emask ∧ w.stack = q.2.2.stack ∧ w.keys = q.2.2.keys ∧
            (∀ n, n < 64 → w.sreg n = rd (0x40 + 4 * n)) ∧ (∀ n l, n < 8 * w.allot → l < 32 → w.vreg n l = rd (0x820 + 128 * n + 4 * l)) ∧
            w.fmt = (rd 0x14).setWidth 16 &&& 0xBFFF ∧ w.aflags = rd 0x18 &&& 0x007F007F) ∧
        ((∃ p ∈ pagePieces base size, meets p ∧ refused p) → t.warps[q.2.1]? = (resumed s x.dbgWg)[q.2.1]?)) ∧
  (∀ s cl x g gr, s.clusters[cl]? = some x → x.dbg = .stopping → s.wgs[x.dbgWg]? = some g → s.grids[g.grid]? = some gr →
    (s.cmdsLive x.dbgWg = true → exec (.stopDump cl) s = .next s) ∧
    let base := bitsAt (s.reg (dumpBaseHi cl)) 0 20 * 2 ^ 32 + (s.reg (dumpBaseLo cl)).toNat
    let size := 256 + g.warpBase gr.lrec + ((s.ordinary x.dbgWg).map fun p => warpRecord p.2).sum
    let enabled := (s.reg (trCtl cl)).getLsbD 31
    (s.cmdsLive x.dbgWg = false → s.spanWaits cl gr.asid base size true = false → s.spanAway gr.asid base size = false →
      (∀ r ∈ s.devReqs, r.use ≠ .dump cl) → ∃ t y, exec (.stopDump cl) s = .next t ∧
      t = { s with clusters := t.clusters, cores := t.cores, mem := t.mem, memPsn := t.memPsn, slices := t.slices, stamp := t.stamp } ∧
      t.clusters[cl]? = some y ∧
      (enabled = true → 576 ≤ x.fifo.length → y.dbg = .stopping ∧ y.fifo = x.fifo ∧ t.stamp = s.stamp) ∧
      (enabled = true → x.fifo.length < 576 → y.dbg = .stopped ∧ t.stamp = s.stamp + 1 ∧ ∃ slot, slot < 64 ∧
        y.fifo = x.fifo ++ [.stop (g.core % 12 * 64 + slot) x.dbgCause (g.bar 0).phase x.clk]) ∧
      (enabled = false → y.dbg = .stopped ∧ y.fifo = x.fifo ∧ t.stamp = s.stamp + 1) ∧
      ∀ k a v w0, s.MemOk → base % 2 ^ 16 + size ≤ 2 ^ 16 → s.walkCheck gr.asid base true false (cl / 16) = .ok w0 → s.place gr.asid base = .here k a v →
        Memory.word t.mem k = BitVec.ofNat 32 g.seq ∧ Memory.word t.mem (k + 8) = BitVec.ofNat 32 x.dbgCause ∧
        ∀ b, b < k ∨ k + size ≤ b → Memory.get t.mem b = Memory.get s.mem b)) ∧
  (∀ s cl x g, s.clusters[cl]? = some x → x.dbg = .stepping → s.wgs[x.dbgWg]? = some g →
    let all := ∀ w ∈ s.warps, w.wg = x.dbgWg → w.status = .running → w.issued = true
    (g.hasEnded = true → exec (.stepEnd cl) s = .next { s with clusters := s.clusters.set cl { x with dbg := .none } }) ∧
    (g.hasEnded = false → all ∨ 4096 ≤ x.stepClk →
      ∃ ns : List Nat, exec (.stepEnd cl) s = .next { s with clusters := s.clusters.set cl { x with dbg := .stopping, dbgCause := 3, bpHit := [], noStep := ns } } ∧
        ∀ n, n ∈ ns ↔ ∃ w ∈ s.warps, w.wg = x.dbgWg ∧ w.status = .running ∧ w.handler = none ∧ w.issued = false ∧ w.num = n) ∧
    (g.hasEnded = false → ¬all → x.stepClk < 4096 → exec (.stepEnd cl) s = .next s))

/-! ### Trace, profiling, YIELD -/

/-- R59, R198, R335 to R337, R340, R342 to R345: YIELD names the ready warps that go first; a TEMIT record enters the FIFO or is dropped
and counted; the oldest packet drains into the buffer, TRWP moving only once its bytes have performed; writes of TRCTL, TRRP, STCTL and STRP;
each engine counts one cause in a clk, and no clk twice; a full entry of the stall table spills its record.
The model's choices in it: log entries 36, 37 and 49. -/
def Obligations.TraceAndProfiling : Prop :=
  (∀ s c, Issues .yield s c → ∃ ys : List Nat, LeavesWarp .yield s { goesOn c.w 4 with yielded := ys } ∧
    ∀ j, j ∈ ys ↔ j ≠ s.cur ∧ ∃ x g, s.warps[j]? = some x ∧ s.wgs[x.wg]? = some g ∧ x.status = .running ∧ x.wait = .none ∧ x.yielded = [] ∧
      x.slot % 2 = c.w.slot % 2 ∧ c.w.cls ≤ x.cls ∧ g.core = c.g.core ∧ g.status = .running) ∧
  (∀ (a b : Fin 64) s c x, Issues (.temit a b) s c → s.clusters[coreCl c.g.core]? = some x →
    let cl := coreCl c.g.core
    let p : Packet := .temit (c.g.core % 12 * 64 + c.w.slot) (BitVec.ofNat 64 ((c.w.sreg a).toNat + 2 ^ 32 * (c.w.sreg b).toNat)) x.clk
    (¬tracing s cl c.gr.asid → LeavesWarp (.temit a b) s (goesOn c.w 4)) ∧
    (tracing s cl c.gr.asid → x.fifo.length < 512 →
      exec (.temit a b) s = .next { withWarp s (goesOn c.w 4) with clusters := s.clusters.set cl { x with fifo := x.fifo ++ [p] } }) ∧
    (tracing s cl c.gr.asid → 512 ≤ x.fifo.length →
      ∃ t, exec (.temit a b) s = .next t ∧
        t = { withWarp s (goesOn c.w 4) with clusters := s.clusters.set cl { x with lossCnt := x.lossCnt + 1 }, mgmt := t.mgmt } ∧
        t.reg (trDrop cl) = BitVec.ofNat 32 (min (2 ^ 32 - 1) ((s.reg (trDrop cl)).toNat + 1)) ∧ keepsRegs s t fun ma => ma = trDrop cl)) ∧
  (∀ s cl x p rest, s.MemOk → cl < 64 → s.clusters[cl]? = some x → x.fifo = p :: rest → x.trFail = false → (∀ r ∈ s.devReqs, r.use ≠ .trace cl) →
    let sync := x.lastTs = none ∨ 256 ≤ x.sinceSync ∨ 2 ^ 32 ≤ p.ts - x.lastTs.getD 0
    ∀ bytes, (sync → bytes = syncBytes p.ts x.nPkts (cl / 16 + cl % 16 * 2 ^ 4) ++ p.bytes p.ts) → (¬sync → bytes = p.bytes (x.lastTs.getD 0)) →
    (4096 ≤ bufSize s (trSize cl) → bufFree s (trSize cl) (trWp cl) (trRp cl) < bytes.length + 64 → exec (.traceDrain cl) s = .next s) ∧
    (let b := s.circBuf (trBaseLo cl) (trBaseHi cl) (trSize cl) (trWp cl) (trRp cl)
     s.badStore x.drainAsid (b.addrs bytes.length) (cl / 16) = none → (∃ q ∈ b.spans bytes, s.spanAway x.drainAsid q.1 q.2.length = true) →
      ∃ t y, exec (.traceDrain cl) s = .next t ∧ (∀ ma, t.reg ma = s.reg ma) ∧ t.clusters[cl]? = some y ∧ y.fifo = x.fifo ∧ y.nPkts = x.nPkts) ∧
    (∀ k, bufAt s (cl / 16) x.drainAsid (trBaseLo cl) (trBaseHi cl) (trSize cl) k →
      bytes.length + 64 ≤ bufFree s (trSize cl) (trWp cl) (trRp cl) → ∃ t y, exec (.traceDrain cl) s = .next t ∧
      t = { s with mem := t.mem, memPsn := t.memPsn, slices := t.slices, cores := t.cores, clusters := t.clusters, mgmt := t.mgmt } ∧
      t.reg (trWp cl) = BitVec.ofNat 32 (((s.reg (trWp cl)).toNat + bytes.length) % bufSize s (trSize cl)) ∧ keepsRegs s t (fun ma => ma = trWp cl) ∧
      ringBytes s t k (bufSize s (trSize cl)) (s.reg (trWp cl)).toNat bytes ∧ t.clusters[cl]? = some y ∧ y.nPkts = x.nPkts + 1 ∧
      y.lastTs = some p.ts ∧ (sync → y.sinceSync = 1) ∧ (¬sync → y.sinceSync = x.sinceSync + 1) ∧ y.lossCnt = 0 ∧
      y.fifo = if x.lossCnt = 0 then rest else rest ++ [.loss x.lossCnt x.clk])) ∧
  (∀ s cl v x, s.up = true → s.clusterPresent cl = true → s.clusters[cl]? = some x →
    let was := (s.reg (trCtl cl)).getLsbD 31
    (v.getLsbD 31 = false ∨ was = true → ∃ t, exec (.trctlWrite cl v) s = .next t ∧ t.reg (trCtl cl) = v &&& 0x9FFF0000 ∧
      t = { s with mgmt := t.mgmt, clusters := s.clusters.set cl { x with
        trFail := false, drainAsid := if v.getLsbD 31 then bitsAt v 16 13 else x.drainAsid } } ∧ keepsRegs s t fun ma => ma = trCtl cl) ∧
    (v.getLsbD 31 = true → was = false → ∃ t y, exec (.trctlWrite cl v) s = .next t ∧ t.reg (trCtl cl) = v &&& 0x9FFF0000 ∧
      t = { s with mgmt := t.mgmt, clusters := s.clusters.set cl y } ∧ keepsRegs s t (fun ma => ma = trCtl cl ∨ ma = trDrop cl) ∧
      t.reg (trDrop cl) = BitVec.ofNat 32 (min (2 ^ 32 - 1) ((s.reg (trDrop cl)).toNat + x.fifo.countP Packet.isRecord)) ∧
      (∃ ps, y = { x with fifo := ps, lossCnt := 0, nPkts := 0, sinceSync := 0, lastTs := none, drainAsid := bitsAt v 16 13, trFail := false }) ∧
      ∀ p ∈ y.fifo, ∃ (wi : Nat) (g : Workgroup), s.wgs[wi]? = some g ∧ g.onCore = true ∧ coreCl g.core = cl ∧ (s.grids[g.grid]?).map Grid.asid = some (bitsAt v 16 13) ∧
        ∃ slots, p = .wgmap (g.core % 12 * 64) (bitsAt v 16 13) g.seq (g.die * 2 ^ 8 + g.cl * 2 ^ 4 + g.wg) slots x.clk)) ∧
  (∀ s cl v x, s.up = true → s.clusterPresent cl = true → s.clusters[cl]? = some x →
    (∃ t, exec (.trrpWrite cl v) s = .next t ∧ t = { s with mgmt := t.mgmt, clusters := s.clusters.set cl { x with trFail := false } } ∧
      t.reg (trRp cl) = v ∧ keepsRegs s t fun ma => ma = trRp cl) ∧
    (∃ t, exec (.strpWrite cl v) s = .next t ∧ t = { s with mgmt := t.mgmt, clusters := s.clusters.set cl { x with stFail := false } } ∧
      t.reg (stRp cl) = v ∧ keepsRegs s t fun ma => ma = stRp cl) ∧
    (v.getLsbD 0 = false → ∃ t, exec (.stctlSpillAll cl v) s = .next t ∧
      t = { s with mgmt := t.mgmt, clusters := s.clusters.set cl { x with stFail := false } } ∧ t.reg (stCtl cl) = v &&& 0x9FFF0000 ∧
      keepsRegs s t fun ma => ma = stCtl cl) ∧
    (v.getLsbD 0 = true → bufSize s (stSize cl) < 4096 → ∃ t, exec (.stctlSpillAll cl v) s = .next t ∧
      t = { s with mgmt := t.mgmt, clusters := s.clusters.set cl { x with stFail := false, stalls := [], spillQ := [] } } ∧
      t.reg (stCtl cl) = v &&& 0x9FFF0000 ∧
      t.reg (stLost cl) = BitVec.ofNat 32 (min (2 ^ 32 - 1) ((s.reg (stLost cl)).toNat + x.spillQ.length + x.stalls.length)) ∧
      keepsRegs s t fun ma => ma = stCtl cl ∨ ma = stLost cl)) ∧
  (∀ s cl c, s.clusters[cl]? = some c →
    (c.counted = true → exec (.stallSample cl) s = .next s) ∧
    (c.counted = false → ∃ t d, exec (.stallSample cl) s = .next t ∧ t.warps = s.warps ∧ t.wgs = s.wgs ∧ t.grids = s.grids ∧ t.ops = s.ops ∧
      t.clusters[cl]? = some d ∧ d.counted = true ∧
      ((s.reg (stCtl cl)).getLsbD 31 = false → c.spillQ = [] → t = { s with cores := t.cores, clusters := s.clusters.set cl { c with counted := true } } ∧
        ∀ (k : Nat) (x y : Core), s.cores[k]? = some x → t.cores[k]? = some y →
        (coreCl k ≠ cl ∨ s.corePresent k = false → y = x) ∧
        (coreCl k = cl → s.corePresent k = true → ∃ q, y = { x with stall := q } ∧
          (∀ e, e < 6 → ∃ u, u < 6 ∧
            (e = 0 ∨ e = 1 → u = match x.lastPick.getD (2 * e) none with
              | none => 1
              | some p => if p.lost.isSome then 5 else if p.done then 0 else 1) ∧
            ∀ v, v < 6 → y.stallCount e v = (x.stallCount e v + if v = u then 1 else 0) % 2 ^ 64) ∧
          ∀ e, e < 2 →
            let starves := ∃ w ∈ s.warps, ∃ g, w.status = .running ∧ w.starved = true ∧ w.slot % 2 = e ∧ s.wgs[w.wg]? = some g ∧ g.core = k ∧ g.status = .running
            (starves → y.stallCount e 6 = (x.stallCount e 6 + 1) % 2 ^ 64) ∧ (¬starves → y.stallCount e 6 = x.stallCount e 6 % 2 ^ 64))))) ∧
  (∀ s cl n x e, s.MemOk → cl < 64 → s.clusters[cl]? = some x → x.stalls[n]? = some e → e.count = 2 ^ 32 - 1 → x.spillQ = [] →
    (∀ r ∈ s.devReqs, r.use ≠ .stall cl) →
    (bufFree s (stSize cl) (stWp cl) (stRp cl) < 64 ∨ bufSize s (stSize cl) < 4096 → ∃ t, exec (.stallCountOverflow cl n) s = .next t ∧
      t = { s with mgmt := t.mgmt, clusters := s.clusters.set cl { x with stalls := x.stalls.set n { e with count := 0 } } } ∧
      t.reg (stLost cl) = BitVec.ofNat 32 (min (2 ^ 32 - 1) ((s.reg (stLost cl)).toNat + 1)) ∧ keepsRegs s t fun ma => ma = stLost cl) ∧
    (∀ k, bufAt s (cl / 16) (bitsAt (s.reg (stCtl cl)) 16 13) (stBaseLo cl) (stBaseHi cl) (stSize cl) k → 64 ≤ bufFree s (stSize cl) (stWp cl) (stRp cl) →
      ∃ t y, exec (.stallCountOverflow cl n) s = .next t ∧
        t = { s with mem := t.mem, memPsn := t.memPsn, slices := t.slices, cores := t.cores, clusters := t.clusters, mgmt := t.mgmt } ∧
        t.clusters[cl]? = some y ∧ y.stalls = x.stalls.set n { e with count := 0 } ∧ y.spillQ = [] ∧
        t.reg (stWp cl) = BitVec.ofNat 32 (((s.reg (stWp cl)).toNat + 32) % bufSize s (stSize cl)) ∧ keepsRegs s t (fun ma => ma = stWp cl) ∧
        ringBytes s t k (bufSize s (stSize cl)) (s.reg (stWp cl)).toNat
          ((stallRecord cl e).flatMap fun w => (List.range 4).map fun i => BitVec.ofNat 8 (w.toNat / 256 ^ i))))

/-! ### Registers -/

/-- R293, R294, R323, R332, R336, R342, R345, R351 to R354, R358, R384, R398, R414, R426: reads that clear, and that latch; writes of
plain registers, and of those whose write does more.
The model's choices in it: log entries 65, 68 and 69. -/
def Obligations.RegistersReadAndWritten : Prop :=
  (∀ i ma s, clearingRead i = some ma → readPresent s i → s.up = true →
    ∃ t, exec i s = .next t ∧ t = { s with mgmt := t.mgmt, replies := .mgmt (s.reg ma) :: s.replies } ∧ t.reg ma = 0 ∧ keepsRegs s t fun a => a = ma) ∧
  (∀ s, s.up = true → exec .tbloRead s = .next { s with tbLatch := BitVec.ofNat 32 (s.tb / 2 ^ 32), replies := .mgmt (BitVec.ofNat 32 s.tb) :: s.replies }) ∧
  (∀ s k (e : Fin 6) (u : Fin 7) x, s.up = true → k < 768 → s.corePresent k = true → s.clusterPresent (k / 12) = true → s.cores[k]? = some x →
    ∃ t, exec (.stallCounterRead k e u) s = .next t ∧
      t = { s with stallLatch := t.stallLatch, replies := .mgmt (BitVec.ofNat 32 (x.stallCount e u)) :: s.replies } ∧
      (t.mgmtRead (stallMa k e u + 4)).1 = BitVec.ofNat 32 (x.stallCount e u / 2 ^ 32)) ∧
  (∀ s k v x, s.up = true → s.corePresent k = true → s.cores[k]? = some x →
    ∃ y, exec (.ecclrWrite k v) s = .next { s with cores := s.cores.set k y } ∧ y = { x with stall := y.stall } ∧ ∀ e u, y.stallCount e u = 0) ∧
  (∀ s ma v mask, s.up = true → plainReg s ma mask → ∃ t, exec (.registerWrite ma v) s = .next t ∧ onlyRegs s t (fun a => a = ma) ∧ t.reg ma = v &&& mask) ∧
  (∀ s ma v, s.up = false ∨ ma ∈ readOnly ∨ s.blockAt ma = .absent → exec (.registerWrite ma v) s = .next s) ∧
  (∀ s v, s.up = true →
    let locked := (s.reg 0x0020).getLsbD 31 = true ∧ ∃ g, g < 16 ∧ (s.reg (lgCtl g)).getLsbD 31 = true ∧ (s.reg (lgCtl g)).getLsbD 29 = false
    (locked → exec (.chipidWrite v) s = .next s) ∧
    (¬locked → ∃ t, exec (.chipidWrite v) s = .next t ∧ onlyRegs s t (fun a => a = 0x0020) ∧ t.reg 0x0020 = BitVec.ofNat 32 (2 ^ 31 + bitsAt v 0 20))) ∧
  (∀ s v, s.up = true → ∃ t, exec (.mgaploWrite v) s = .next t ∧ t = { s with mgmt := t.mgmt, aperture := s.aperture && !v.getLsbD 0 } ∧
    t.reg 0x0080 = v &&& 0x80000001 ∧ keepsRegs s t fun a => a = 0x0080) ∧
  (∀ s (d : Fin 4) (n : Fin 2) v, s.MemOk → s.up = true →
    let tail := s.reg (flTail d n)
    let k := physKey d (bitsAt (s.reg (flBase d n)) 0 24 * 2 ^ 16 + 4 * (tail.toNat % 2 ^ 22))
    ∃ t, exec (.fladdWrite d n v) s = .next t ∧ t = { s with mem := t.mem, mgmt := t.mgmt } ∧ t.reg (flTail d n) = tail + 1 ∧
      keepsRegs s t (fun a => a = flTail d n) ∧ Memory.word t.mem k = BitVec.ofNat 32 (bitsAt v 0 24) ∧
      ∀ a, a < k ∨ k + 4 ≤ a → Memory.get t.mem a = Memory.get s.mem a) ∧
  (∀ s (q : Fin 64) v, s.up = true →
    let old := s.reg (lqCtl q)
    (old.getLsbD 31 = true → v.getLsbD 31 = true → exec (.lqctlWrite q v) s = .next s) ∧
    (old.getLsbD 31 = true → v.getLsbD 31 = false → ∃ t, exec (.lqctlWrite q v) s = .next t ∧ t = { s with mgmt := t.mgmt, cands := t.cands } ∧
      t.reg (lqCtl q) = old &&& 0x7FFFFFFF ∧ keepsRegs s t (fun a => a = lqCtl q) ∧
      t.cands = s.cands.map fun c => if c.src = .host q then { c with lrec := none, waiting := false } else c) ∧
    (old.getLsbD 31 = false → ∃ t, exec (.lqctlWrite q v) s = .next t ∧ t = { s with mgmt := t.mgmt, cands := t.cands } ∧
      bitsAt (t.reg (lqCtl q)) 0 4 = (if bitsAt v 0 4 = 0 ∨ 12 < bitsAt v 0 4 then 1 else bitsAt v 0 4) ∧
      bitsAt (t.reg (lqCtl q)) 16 13 = bitsAt v 16 13 ∧ (t.reg (lqCtl q)).getLsbD 31 = v.getLsbD 31 ∧
      keepsRegs s t (fun a => a = lqCtl q ∨ a = lqTail q) ∧
      (bitsAt (t.reg (lqCtl q)) 0 4 = bitsAt old 0 4 → t.reg (lqTail q) = s.reg (lqTail q) ∧ t.cands = s.cands) ∧
      (bitsAt (t.reg (lqCtl q)) 0 4 ≠ bitsAt old 0 4 → t.reg (lqTail q) = 0 ∧ t.cands = s.cands.filter fun c => decide (c.src ≠ .host q)))) ∧
  (∀ s (q : Fin 64) v, s.up = true →
    let n := 2 ^ bitsAt (s.reg (lqCtl q)) 0 4
    let head := bitsAt (s.reg (lqTail q)) 16 12
    let tail := bitsAt v 0 12 % n
    ∃ t, exec (.lqtailWrite q v) s = .next t ∧ t = { s with mgmt := t.mgmt, cands := t.cands } ∧
      t.reg (lqTail q) = BitVec.ofNat 32 (head * 2 ^ 16 + tail) ∧ keepsRegs s t (fun a => a = lqTail q) ∧
      (t.cands.filter fun c => decide (c.src = .host q)).length = (tail + n - head) % n ∧
      (t.cands.filter fun c => decide (c.src ≠ .host q)) = s.cands.filter fun c => decide (c.src ≠ .host q)) ∧
  (∀ s (g : Fin 16) v, s.up = true → s.hasGroup g = true → (s.reg (lgCtl g)).getLsbD 31 = false →
    ∃ t, exec (.lgctlWrite g v) s = .next t ∧ t = { s with mgmt := t.mgmt, groupUp := t.groupUp, optics := t.optics, crcFails := t.crcFails } ∧
      keepsRegs s t (fun a => a = lgCtl g ∨ a = lgStat g) ∧ (t.reg (lgCtl g)).getLsbD 31 = v.getLsbD 31 ∧ (t.reg (lgCtl g)).getLsbD 29 = v.getLsbD 29 ∧
      (t.reg (lgCtl g)).getLsbD 28 = v.getLsbD 28 ∧ bitsAt (t.reg (lgCtl g)) 8 8 = bitsAt v 8 8 ∧ bitsAt (t.reg (lgCtl g)) 0 3 = bitsAt v 0 3 ∧
      (v.getLsbD 31 = false → t.reg (lgStat g) = s.reg (lgStat g)) ∧
      (v.getLsbD 31 = true → bitsAt (t.reg (lgStat g)) 30 2 = 1 ∧ ∃ x ∈ t.groupUp, x.group = g.val ∧ x.since = s.now ∧ x.sub = 0)) ∧
  (∀ s (g : Fin 16) v, s.up = true → s.hasGroup g = true → (s.reg (lgCtl g)).getLsbD 31 = true → v.getLsbD 31 = false →
    ∃ t, exec (.lgctlWrite g v) s = .next t ∧ groupDown s t g ∧ t = { s with
        mgmt := t.mgmt, groupUp := s.groupUp.filter fun x => x.group != g.val, outbox := t.outbox, flitIn := t.flitIn } ∧
      keepsRegs s t (fun a => a = lgCtl g ∨ a = lgStat g) ∧ (t.reg (lgCtl g)).getLsbD 31 = false ∧ t.reg (lgStat g) = 0) ∧
  (∀ s (g : Fin 16) v, s.up = true → s.hasGroup g = true → (s.reg (lgCtl g)).getLsbD 31 = true → v.getLsbD 31 = true → groupStateOf s g = 2 →
    1 ≤ bitsAt v 8 8 → bitsAt v 8 8 ≤ bitsAt s.capsLink 16 8 → 1 ≤ bitsAt (s.reg (lgCtl g)) 8 8 →
    bitsAt (s.reg (lgCtl g)) 8 8 ≤ bitsAt s.capsLink 16 8 → bitsAt v 8 8 ≠ bitsAt (s.reg (lgCtl g)) 8 8 →
    ∃ t, exec (.lgctlWrite g v) s = .next t ∧ t = { s with mgmt := t.mgmt, groupUp := t.groupUp, outbox := t.outbox, flitIn := t.flitIn } ∧
      bitsAt (t.reg (lgCtl g)) 8 8 = bitsAt v 8 8 ∧ bitsAt (t.reg (lgCtl g)) 0 3 = bitsAt v 0 3 ∧
      bitsAt (t.reg (lgCtl g)) 28 3 = bitsAt (s.reg (lgCtl g)) 28 3 ∧
      (t.tooNarrow g = false → keepsRegs s t (fun a => a = lgCtl g ∨ a = lgStat g) ∧ groupStateOf t g = 1 ∧ t.outbox = s.outbox ∧
        ∃ x ∈ t.groupUp, x.group = g.val ∧ x.since = s.now ∧ x.sub = 3 ∧ x.before = s.reg (lgStat g))) ∧
  (∀ s v, s.up = true →
    let u := if bitsAt v 30 2 = 0 then v &&& 0xF000FFFF else v &&& 0xF000FF00
    (u ∈ s.retired → exec (.retireWrite v) s = .next s) ∧
    (∀ t, exec (.retireWrite v) s = .next t → t = s ∨ (t = { s with retired := s.retired ++ [u] } ∧ s.unitPresent u = true)) ∧
    (u ∉ s.retired → s.unitPresent u = true → bitsAt v 30 2 = 3 → (s.die (bitsAt v 28 2)).clmask ≠ 0 → (s.die (bitsAt v 28 2)).sliceLo ≠ 0 →
      s.retired = [] → (∃ j, j < 4 ∧ j ≠ bitsAt v 8 8 ∧ s.hbm.getLsbD (4 * bitsAt v 28 2 + j) = true) →
      exec (.retireWrite v) s = .next { s with retired := [u] }))

/-! ### Links, time, power, bring-up -/

/-- R315 to R324, R332 to R334, R415 to R423: lanes, retraining, frequency; fibre groups; tokens; time; and a message that arrives on a
fibre group is served, delivered, forwarded, counted or dropped.
The model's choices in it: log entries 55 to 58. -/
def Obligations.LinksAndTime : Prop :=
  (∀ s (l : Fin 12) (lane : Fin 64) x, s.links[l.val]? = some x → x.failed = false → x.lanes.getLsbD lane = true →
    let width := widthOf (lanesLeft x lane)
    (width ≠ 0 → x.training = false → ¬restartsAt s l 3 →
      ∃ t, exec (.laneFailure l lane) s = .next t ∧ t = { s with links := t.links, mgmt := t.mgmt } ∧ keepsRegs s t ofLinkLog ∧
        newestLink s t 1 0 (linkByte l) (BitVec.ofNat 32 lane) (BitVec.ofNat 32 width) ∧
        t.links[l.val]? = some { x with lanes := lanesLeft x lane, training := true } ∧
        ∀ (p : Nat) (y : DieLink), s.links[p]? = some y → p ≠ l.val →
          t.links[p]? = some (if onWire l p then { y with lanes := lanesLeft y (63 - lane.val), training := true } else y)) ∧
    (width ≠ 0 → x.training = true → ¬restartsAt s l 2 →
      ∃ t, exec (.laneFailure l lane) s = .next t ∧ t = { s with links := t.links, mgmt := t.mgmt, dies := t.dies } ∧ keepsRegs s t ofLinkLog ∧
        newestLink s t 1 0 (linkByte l) (BitVec.ofNat 32 lane) (BitVec.ofNat 32 width) ∧
        (t.link l).training = true ∧ (t.link l).failed = false ∧
        ∀ (p : Nat) (y : Die), p < 12 → s.dies[p / 3]? = some y → onWire l p = true →
          t.dies[p / 3]? = some (if y.freqWant.isSome then { y with restarts := y.restarts.modify (p % 3) (· + 1) } else y)) ∧
    (width = 0 → ∃ t, exec (.laneFailure l lane) s = .next t ∧ LinkFails s t l lane 2 0) ∧
    (width ≠ 0 → x.training = true → restartsAt s l 2 → s.dies.length = 4 → (∀ d ∈ s.dies, d.restarts.length = 3) →
      ∃ t, exec (.laneFailure l lane) s = .next t ∧ LinkFails s t l lane 3 width)) ∧
  (∀ s (l : Fin 12) x, s.links[l.val]? = some x → x.training = true →
    ∃ t, exec (.linkRetrainDone l) s = .next t ∧ t = { s with links := t.links, mgmt := t.mgmt } ∧ keepsRegs s t ofLinkLog ∧
      newestLink s t 3 1 (linkByte l) (BitVec.ofNat 32 x.width) (BitVec.ofNat 32 (widthOf x.lanes)) ∧
      ∀ (p : Nat) (y : DieLink), s.links[p]? = some y → t.links[p]? = some (if onWire l p then { y with training := false, width := widthOf x.lanes } else y)) ∧
  (∀ s (d : Fin 4) x step, s.dies[d.val]? = some x → x.freqWant = some step →
    ((∀ p, p < 3 → (s.link (3 * d + p)).training = false) →
      exec (.frequencySwitch d) s = .next { s with dies := s.dies.set d { x with step := step, freqWant := none, restarts := [0, 0, 0] } }) ∧
    ((∃ p, p < 3 ∧ (s.link (3 * d + p)).training = true) → exec (.frequencySwitch d) s = .next s)) ∧
  (∀ s (d : Fin 4) n x, s.dies[d.val]? = some x → (s.link (3 * d)).training = false → x.isolated = false →
    exec (.centreLinkMeasure d n) s = .next { s with dies := s.dies.set d { x with rt := n } }) ∧
  (∀ s (d : Fin 4) n x c0, s.dies[d.val]? = some x → ownsChannel x n →
    (x.channels.find? fun c => c.num == n) = some c0 ∨ ((x.channels.find? fun c => c.num == n) = none ∧ c0 = { num := n }) → c0.failedOver = false →
    let k := c0.times.countP fun u => decide (s.now < u + 16000000)
    ∃ t c sub, exec (.tokenRegenerate d n) s = .next t ∧
      t = { s with mgmt := t.mgmt, dies := s.dies.set d { x with channels := c :: x.channels.filter fun c => c.num != n } } ∧ c.num = n ∧
      (c.failedOver = true ↔ 15 ≤ k) ∧ c.times.head? = some s.now ∧ c.times.length = k + 1 ∧ keepsRegs s t ofLinkLog ∧ (sub = 1 ∨ sub = 2) ∧
      (k < 15 → newestLink s t 6 sub (0x40 + d) (BitVec.ofNat 32 n) (BitVec.ofNat 32 (k + 1))) ∧
      (15 ≤ k → ∃ u, u.tb = s.tb ∧ newestLink s u 6 sub (0x40 + d) (BitVec.ofNat 32 n) (BitVec.ofNat 32 (k + 1)) ∧
        newestLink u t 6 3 (0x40 + d) (BitVec.ofNat 32 n) (BitVec.ofNat 32 (k + 1)))) ∧
  (∀ s (g : Fin 16) x, s.groupUp.find? (fun t => t.group == g.val) = some x → groupStateOf s g = 1 →
    (s.tooNarrow g = false → ∃ t, exec (.linkTrainingDone g) s = .next t ∧
      t = { s with mgmt := t.mgmt, groupUp := s.groupUp.filter fun t => t.group != g.val } ∧ groupStateOf t g = 2 ∧
      keepsRegs s t (fun ma => ma = lgStat g ∨ ofLinkLog ma) ∧ (t.reg (lgStat g)).getLsbD 29 = (s.reg (lgCtl g)).getLsbD 30 ∧
      (x.sub = 0 → keepsRegs s t fun ma => ma = lgStat g) ∧
      (x.sub ≠ 0 → x.sub < 256 → newestLink s t 3 x.sub g x.before (t.reg (lgStat g)))) ∧
    (x.since + 1600000000 < s.now → ∃ t, exec (.groupTrainingTimeout g) s = .next t ∧ t = { s with
        mgmt := t.mgmt, groupUp := s.groupUp.filter fun t => t.group != g.val, outbox := t.outbox, flitIn := t.flitIn } ∧ groupStateOf t g = 3 ∧
      groupDown s t g ∧ keepsRegs s t (fun ma => ma = lgStat g ∨ ofLinkLog ma) ∧ newestLink s t 4 1 g (BitVec.ofNat 32 (flitsOut s g)) 0)) ∧
  (∀ s (g : Fin 16) (f : Fin 8) lam, groupStateOf s g = 1 ∨ groupStateOf s g = 2 → (∀ x ∈ s.optics, x.group ≠ g.val) → (∀ n, lam = some n → n < bitsAt s.capsLink 16 8) →
    let x : GroupLoss := match lam with
      | some n => { group := g, lambdas := [(f.val, n)] }
      | none => { group := g, fibres := [f.val] }
    let info : Word := BitVec.ofNat 32 (f.val * 256 + (match lam with
      | some n => n
      | none => 255))
    ∃ t, exec (.fibreGroupLoss g f lam) s = .next t ∧
      t = { s with mgmt := t.mgmt, groupUp := t.groupUp, optics := x :: s.optics, outbox := t.outbox, flitIn := t.flitIn } ∧
      keepsRegs s t (fun ma => ma = lgStat g ∨ ofLinkLog ma) ∧
      (groupStateOf t g = 3 ↔ ({ s with optics := x :: s.optics } : State).tooNarrow g = true) ∧
      (groupStateOf t g ≠ 3 → t.outbox = s.outbox ∧ t.flitIn = s.flitIn ∧ newestLink s t 2 0 g info (t.reg (lgStat g)) ∧
        (groupStateOf t g ≠ groupStateOf s g → groupStateOf t g = 1 ∧ ∃ y ∈ t.groupUp, y.group = g.val ∧ y.sub = 1 ∧ y.since = s.now)) ∧
      (groupStateOf t g = 3 → groupDown s t g ∧ ∃ u, u.tb = s.tb ∧ newestLink s u 2 0 g info (t.reg (lgStat g)) ∧
        newestLink u t 4 2 g (BitVec.ofNat 32 (flitsOut s g)) 0)) ∧
  (∀ s (g : Fin 16), groupStateOf s g = 2 → (∀ x ∈ s.recal, x.1 ≠ g.val) →
    exec (.wavelengthRecalibration g) s = .next { s with recal := (g.val, s.now) :: s.recal }) ∧
  (∀ s (g : Fin 16) u, (s.reg (lgStat g)).getLsbD 28 = true → (g.val, u) ∈ s.lastFlit → (∀ x ∈ s.lastFlit, x.1 = g.val → x = (g.val, u)) → u + 160000000 ≤ s.now →
    ∃ t, exec (.tlockLapse g) s = .next t ∧ onlyRegs s t (fun ma => ma = lgStat g) ∧ t.reg (lgStat g) = s.reg (lgStat g) &&& 0xEFFFFFFF) ∧
  (∀ s (g : Fin 16) (m : PtpMsg), s.up = true → carriesTime s g →
    let mine := (s.reg 0x0070).getLsbD 31 = true ∧ m.domain = bitsAt (s.reg 0x0070) 0 7
    ∃ t, exec (.ptpMessage g m.toPtpHead m.kind) s = .next t ∧ (t.reg (lgStat g)).getLsbD 28 = true ∧ (g.val, s.now) ∈ t.lastFlit ∧
      (¬mine ∨ (¬slavePort s g ∧ m.kind ≠ .delayReq) → t = { s with mgmt := t.mgmt, lastFlit := t.lastFlit } ∧ keepsRegs s t fun ma => ma = lgStat g) ∧
      (mine → ¬slavePort s g → m.kind = .delayReq → (keepsRegs s t fun ma => ma = lgStat g) ∧ t = { s with
        mgmt := t.mgmt, lastFlit := t.lastFlit
        outbox := { group := g, chip := s.chip, src := s.chip, body := .time { domain := m.domain, seq := m.seq, kind := .delayResp s.tb }, left := 1 }
          :: s.outbox }) ∧
      (mine → slavePort s g →
        (∀ t1 t2, syncTimes s m t1 t2 → TakesOffset s t ((t2 : Int) - t1 - s.ptp.delay) ∧ t.ptp.sync = some (t1, t2) ∧ t.ptp.syncAt = none ∧
          t.mem = s.mem ∧ t.warps = s.warps ∧ t.outbox = s.outbox ∧ t.now = s.now ∧
          keepsRegs s t fun ma => ma = lgStat g ∨ ma = 0x0074 ∨ ofLinkLog ma) ∧
        (m.kind = .sync none → (keepsRegs s t fun ma => ma = lgStat g) ∧
          t = { s with mgmt := t.mgmt, lastFlit := t.lastFlit, tbLast := s.now, ptp := { s.ptp with syncSeq := m.seq, syncAt := some s.tb } }) ∧
        (∀ t1 t2 t3 t4, m.kind = .delayResp t4 → s.ptp.reqAt = some t3 → s.ptp.sync = some (t1, t2) → m.seq = s.ptp.reqSeq →
          (keepsRegs s t fun ma => ma = lgStat g) ∧ t = { s with
            mgmt := t.mgmt, lastFlit := t.lastFlit
            ptp := { s.ptp with reqAt := none, delay := (((t2 : Int) - t1) + ((t4 : Int) - t3)) / 2 } }))) ∧
  (∀ s, (s.reg 0x0074).getLsbD 31 = true → (s.reg 0x0074).getLsbD 30 = false →
    s.tbLast + 4 * (16000000000 / 2 ^ min 7 (bitsAt (s.reg 0x0070) 12 4)) ≤ s.now ∨ (16 ≤ bitsAt (s.reg 0x0074) 0 16 ∧ bitsAt (s.reg 0x0074) 0 16 ≤ 65520) →
    ∃ t info, exec .timelockLoss s = .next t ∧ t = { s with mgmt := t.mgmt, tbOk := 0, tbLost := true } ∧ t.reg 0x0074 = s.reg 0x0074 &&& 0x7FFFFFFF ∧
      keepsRegs s t (fun ma => ma = 0x0074 ∨ ofLinkLog ma) ∧ newestLink s t 7 1 0xFF info (BitVec.ofNat 32 (bitsAt (s.reg 0x0070) 16 4))) ∧
  (∀ s, s.up = true → (s.reg 0x0070).getLsbD 31 = true → s.ptp.at_ + 16000000000 / 2 ^ min 7 (bitsAt (s.reg 0x0070) 12 4) ≤ s.now →
    let dom := bitsAt (s.reg 0x0070) 0 7
    let master := (s.reg 0x0074).getLsbD 30 = true
    let locked := (s.reg 0x0074).getLsbD 31 = true
    let ok := if s.ptp.good then s.tbOk + 1 else if (s.reg 0x0074).getLsbD 31 then s.tbOk else 0
    ∃ (ms : List OutMsg) (t : State), exec .syncInterval s = .next t ∧
      t = { s with outbox := ms ++ s.outbox, mgmt := t.mgmt, tbOk := t.tbOk, tbLost := t.tbLost, ptp := t.ptp } ∧ t.ptp.at_ = s.now ∧
      (ms.map fun m => (m.group, m.body)).Nodup ∧
      (∀ m ∈ ms, m.chip = s.chip ∧ m.src = s.chip ∧ m.left = 1 ∧ m.group < 16 ∧ carriesTime s m.group ∧ ∃ p, m.body = .time p ∧ p.domain = dom ∧
        (slavePort s m.group → p.kind = .delayReq) ∧ (¬slavePort s m.group → p.kind = .sync none ∨ p.kind = .followUp s.tb)) ∧
      (∀ g, g < 16 → carriesTime s g →
        (slavePort s g → t.ptp.reqAt = some s.tb ∧ ∃ m ∈ ms, m.group = g ∧ m.body = .time { domain := dom, seq := t.ptp.reqSeq, kind := .delayReq }) ∧
        (¬slavePort s g → ∃ seq m n, m ∈ ms ∧ n ∈ ms ∧ m.group = g ∧ n.group = g ∧ m.body = .time { domain := dom, seq := seq, kind := .sync none } ∧
          n.body = .time { domain := dom, seq := seq, kind := .followUp s.tb })) ∧
      (master → t.mgmt = s.mgmt ∧ t.tbOk = s.tbOk ∧ t.tbLost = s.tbLost) ∧
      (¬master → t.tbOk = ok ∧ t.ptp.good = false ∧
        (ok < 16 ∨ locked → t.mgmt = s.mgmt ∧ t.tbLost = s.tbLost) ∧
        (16 ≤ ok → ¬locked → (t.reg 0x0074).getLsbD 31 = true ∧ t.tbLost = false ∧ keepsRegs s t (fun ma => ma = 0x0074 ∨ ofLinkLog ma) ∧
          (s.tbLost = true → ∃ info, newestLink s t 7 2 0xFF info (BitVec.ofNat 32 (bitsAt (s.reg 0x0070) 16 4)))))) ∧
  (∀ s (g : Fin 16) (h : BitVec 64) m, groupStateOf s g = 2 →
    let cls := hCls h
    let dst := hDst h
    let src := hSrc h
    let fails := ((s.crcFails.find? fun x => x.1 == g.val).map Prod.snd).getD 0
    let whole := hSeq h = hNfm1 h
    (fails + 1 < 16 → exec (.flitReceive g h false m) s = .next { s with crcFails := (g.val, fails + 1) :: otherFails s g }) ∧
    (fails = 15 → ∃ t, exec (.flitReceive g h false m) s = .next t ∧ t = { s with mgmt := t.mgmt, groupUp := t.groupUp, crcFails := otherFails s g } ∧
      groupStateOf t g = 1 ∧ ∃ y ∈ t.groupUp, y.group = g.val ∧ y.sub = 2) ∧
    (nextFlit s g h →
      (6 ≤ cls ∨ (cls = 4 ∧ (s.reg (lgStat g)).getLsbD 29 = false) → ∃ t, exec (.flitReceive g h true m) s = .next t ∧
        t = { s with mgmt := t.mgmt, crcFails := otherFails s g, flitIn := keptFlit s g h true } ∧ keepsRegs s t ofLinkLog ∧
        newestLink s t 5 (if 6 ≤ cls then 1 else 2) g (BitVec.ofNat 32 h.toNat) (BitVec.ofNat 32 (h.toNat / 2 ^ 32))) ∧
      (cls < 4 ∨ cls = 5 → ¬whole → exec (.flitReceive g h true m) s = .next { s with crcFails := otherFails s g, flitIn := keptFlit s g h false }) ∧
      (cls < 4 → whole → cls = msgClass m → dst ≠ s.chip →
        (∀ out, s.route dst = .group out → exec (.flitReceive g h true m) s = .next { s with
          crcFails := otherFails s g, flitIn := otherFlits s g h
          outbox := { group := out, chip := dst, src := src, body := m, left := hNfm1 h + 1 } :: s.outbox }) ∧
        (s.route dst = .unreachable → (∀ op sc, m ≠ .notice op sc) → ∃ t, exec (.flitReceive g h true m) s = .next t ∧
          t = { s with mgmt := t.mgmt, crcFails := otherFails s g, flitIn := otherFlits s g h } ∧
          keepsRegs s t ofLinkLog ∧ newestLink s t 5 3 g (BitVec.ofNat 32 h.toNat) (BitVec.ofNat 32 (h.toNat / 2 ^ 32))) ∧
        (s.route dst = .unreachable → (∃ op sc, m = .notice op sc) → exec (.flitReceive g h true m) s = .next s)) ∧
      (cls < 4 → whole → cls = msgClass m → dst = s.chip →
        (∀ tag asid va size k out, m = .read tag asid va size → size ≤ 16 → s.visit asid va false false = .go k → s.route src = .group out →
          ∃ t v p n, exec (.flitReceive g h true m) s = .next t ∧ v.toNat = Memory.getN s.mem k size ∧ t = { s with
            crcFails := otherFails s g, flitIn := otherFlits s g h, slices := t.slices
            outbox := { group := out, chip := src, src := s.chip, body := .reply tag v p 0 0, left := n } :: s.outbox }) ∧
        (∀ tag asid va size be v p k out, s.MemOk → m = .write tag asid va size be v p → size ≤ 16 → s.visit asid va true false = .go k →
          s.route src = .group out → ∃ t n, exec (.flitReceive g h true m) s = .next t ∧
            t = { s with
              crcFails := otherFails s g, flitIn := otherFlits s g h, mem := t.mem, memPsn := t.memPsn, slices := t.slices, cores := t.cores
              clusters := t.clusters
              outbox := { group := out, chip := src, src := s.chip, body := .reply tag 0 0 0 0, left := n } :: s.outbox } ∧
            ∀ a, Memory.get t.mem a = if k ≤ a ∧ a < k + size ∧ be.getLsbD (a - k) = true then BitVec.ofNat 8 (v.toNat / 256 ^ (a - k)) else Memory.get s.mem a) ∧
        (∀ tag asid va op xs k out, s.MemOk → m = .atom tag asid va op xs → op ≠ .fadd → s.visit asid va true true = .go k → s.grainBusy asid va = false →
          Marks.read s.memPsn k 4 = 0 → s.route src = .group out → ∃ t n olds, exec (.flitReceive g h true m) s = .next t ∧
            t = { s with
              crcFails := otherFails s g, flitIn := otherFlits s g h, mem := t.mem, memPsn := t.memPsn, slices := t.slices, cores := t.cores
              clusters := t.clusters
              outbox := { group := out, chip := src, src := s.chip, body := .atomReply tag olds false 0 0, left := n } :: s.outbox } ∧
            Memory.word t.mem k = xs.foldl (aopOf op) (Memory.word s.mem k) ∧ (∀ a, a < k ∨ k + 4 ≤ a → Memory.get t.mem a = Memory.get s.mem a) ∧
            olds.length = xs.length ∧ ∀ i, i < xs.length → olds[i]? = some ((xs.take i).foldl (aopOf op) (Memory.word s.mem k))) ∧
        (∀ asid tgt hi sc hd pay snd sg op, m = .active asid tgt hi sc hd pay snd sg op → ∃ x, exec (.flitReceive g h true m) s = .next { s with
            crcFails := otherFails s g, flitIn := otherFlits s g h, msgs := s.msgs ++ [x], sends := s.sends + 1 } ∧
          x.body = .active hd pay snd sg ∧ x.op = some op ∧ x.chip = some src ∧ x.asid = asid ∧ x.tgt = tgt ∧ x.tgthi = hi ∧ x.sc = sc ∧ x.stage = .sent ∧
          x.sentAt = s.sends) ∧
        (∀ asid tgt hi sc refs id part, m = .splice asid tgt hi sc refs id part 1 → (∀ y ∈ s.msgs, y.parts = 0) →
          ∃ x set, exec (.flitReceive g h true m) s = .next { s with
            crcFails := otherFails s g, flitIn := otherFlits s g h, msgs := s.msgs ++ [x], sends := s.sends + 1 } ∧
          x.body = .splice set (BitVec.ofNat 8 (bitsAt hi 20 8)) ∧ x.chip = some src ∧ x.asid = asid ∧ x.tgt = tgt ∧ x.tgthi = hi ∧ x.sc = sc ∧
          x.stage = .sent ∧ x.parts = 0 ∧
          ∀ y, y ∈ set ↔ ∃ r ∈ refs, y = { op := r.2, chip := if r.1 = s.chip then none else some r.1, via := some sc }))))

/-- R353, R355, R359, R361, R362, R426 to R429: the power controller lowers the die that draws most; a die without a workgroup is gated;
holds and the trip; the ROM verifies, then boots slot 0, else slot 1, else stays in recovery; the firmware's bring-up loads the capability
registers or leaves code 7 or 8, and its end sets READY with every register at its reset value and the boot groups enabled; a firmware that is
late is replaced once.
The model's choices in it: log entries 53, 62, 63 and 89. -/
def Obligations.PowerAndBringUp : Prop :=
  (∀ s p (d : Fin 4) x, s.up = true → s.dies[d.val]? = some x → x.hot = false →
    let lim := bitsAt (s.reg 0x0030) 16 12
    let limit := if lim = 0 ∨ 3780 < lim then 3780 else lim
    let goal := x.freqWant.getD x.step
    ∃ t, exec (.powerControlTick p d) s = .next t ∧ t = { s with mgmt := t.mgmt, dies := t.dies } ∧ t.reg 0x0034 = BitVec.ofNat 32 (min p 4095 * 2 ^ 20) ∧
      keepsRegs s t (fun ma => ma = 0x0034) ∧
      (limit < p → goal < 4 → ∃ y, t.dies = s.dies.set d y ∧ y = { x with freqWant := y.freqWant, restarts := [0, 0, 0] } ∧
        y.freqWant.getD y.step = goal + 1) ∧
      (p ≤ limit → 95 * limit ≤ 100 * p → t.dies = s.dies) ∧
      (100 * p < 95 * limit → min 4 (bitsAt (s.reg 0x0030) (3 * d) 3) < goal →
        ∃ y, t.dies = s.dies.set d y ∧ y = { x with freqWant := y.freqWant, restarts := [0, 0, 0] } ∧ y.freqWant.getD y.step = goal - 1)) ∧
  (∀ s (d : Fin 4) x, s.dies[d.val]? = some x →
    ((∃ g ∈ s.wgs, (g.status = .placed ∨ g.status = .running) ∧ coreDie g.core = d.val) → exec (.dieClockGate d) s = .next s) ∧
    ((∀ g ∈ s.wgs, g.status = .placed ∨ g.status = .running → coreDie g.core ≠ d.val) →
      exec (.dieClockGate d) s = .next { s with dies := s.dies.set d { x with gated := true } })) ∧
  (∀ s (d : Fin 4) temp x, s.dies[d.val]? = some x → 100 ≤ temp → temp < 256 → x.hot = false →
    ∃ t y, exec (.thermalHold d temp) s = .next t ∧ t = { s with mgmt := t.mgmt, hotSince := t.hotSince, dies := s.dies.set d y } ∧ y.hot = true ∧
      y = { x with hot := true, freqWant := y.freqWant, restarts := y.restarts } ∧ y.freqWant.getD y.step = 4 ∧ t.reg (maDie d 0x50) = BitVec.ofNat 32 temp ∧
      keepsRegs s t (fun ma => ma = maDie d 0x50 ∨ ofLinkLog ma) ∧ newestLink s t 8 1 (0x80 + d) (BitVec.ofNat 32 temp) (BitVec.ofNat 32 d)) ∧
  (∀ s (d : Fin 4) temp x, s.dies[d.val]? = some x → temp < 95 → x.hot = true →
    ∃ t, exec (.thermalHoldLeft d temp) s = .next t ∧
      t = { s with mgmt := t.mgmt, hotSince := t.hotSince, dies := s.dies.set d { x with hot := false } } ∧ t.reg (maDie d 0x50) = BitVec.ofNat 32 temp ∧
      keepsRegs s t (fun ma => ma = maDie d 0x50 ∨ ofLinkLog ma) ∧ newestLink s t 8 2 (0x80 + d) (BitVec.ofNat 32 temp) (BitVec.ofNat 32 d)) ∧
  (∀ s (d : Fin 4) temp, s.powered = true → 110 ≤ temp ∨ (105 ≤ temp ∧ ∃ u, s.hotSince.find? (fun x => x.1 == d.val) = some (d.val, u) ∧ u + 16000000 ≤ s.now) →
    ∃ t, exec (.thermalTrip d temp) s = .next t ∧ lifeless t ∧ t.powered = false ∧ t.up = false ∧ bitsAt (t.reg 0x0010) 24 4 = 9 ∧
      (∀ g, g < 16 → groupStateOf t g = 0) ∧ newestLink s t 8 3 (0x80 + d) (BitVec.ofNat 32 temp) (BitVec.ofNat 32 d)) ∧
  (∀ s f0 f1, ∃ t, exec (.powerGood f0 f1) s = .next t ∧ lifeless t ∧ t.up = false ∧ t.powered = true ∧ t.flash = [f0, f1] ∧ t.svnMin = s.svnMin ∧
    t.agenda = s.agenda ∧ (∀ ma, t.reg ma = regReset ma) ∧ (s.flash = [f0, f1] → t.retired = s.retired) ∧ (s.flash ≠ [f0, f1] → t.retired = [])) ∧
  (∀ s, s.up = false → s.powered = true → s.picked = [] → bitsAt (s.reg 0x0010) 28 3 = 0 → bitsAt (s.reg 0x0010) 24 4 = 0 →
    ∃ t, Happens s .rom t ∧ onlyRegs s t (fun ma => ma = 0x0010) ∧ t.reg 0x0010 = bootstat 0 1 0 0 0) ∧
  (∀ s f0 f1, s.up = false → s.powered = true → s.picked = [] → bitsAt (s.reg 0x0010) 28 3 = 1 → s.flash = [f0, f1] →
    let ok0 := verifyImage f0 s.svnMin
    let ok1 := verifyImage f1 s.svnMin
    let booted := fun (t : State) (slot fail : Nat) (f : FwImage) =>
      t = { s with mgmt := t.mgmt, slotRun := slot, bootAt := s.now, measured := sha384 (f.header.take 0x160), attest := t.attest } ∧
      t.reg 0x0010 = bootstat 0 2 fail (headerField f 0x0C 4) (headerField f 8 2)
    let recovery := fun (t : State) (fail : Nat) => onlyRegs s t (fun ma => ma = 0x0010) ∧ t.reg 0x0010 = bootstat 0 0 fail 0 0
    ∃ t, Happens s .rom t ∧ (keepsRegs s t fun ma => ma = 0x0010) ∧
      (bitsAt (s.reg 0x0010) 24 4 ≠ 10 → (ok0 = 0 → booted t 0 0 f0) ∧ (ok0 ≠ 0 → ok1 = 0 → booted t 1 ok0 f1) ∧ (ok0 ≠ 0 → ok1 ≠ 0 → recovery t ok0)) ∧
      (bitsAt (s.reg 0x0010) 24 4 = 10 → s.slotRun = 0 → (ok1 = 0 → booted t 1 10 f1) ∧ (ok1 ≠ 0 → recovery t 10)) ∧
      (bitsAt (s.reg 0x0010) 24 4 = 10 → s.slotRun = 1 → (ok0 = 0 → booted t 0 10 f0) ∧ (ok0 ≠ 0 → recovery t 10))) ∧
  (∀ s (f : Fuses), s.up = false → s.powered = true → bitsAt (s.reg 0x0010) 28 3 = 2 → shippedFuses f = true →
    (f.isolated ≠ [] → ∃ t, exec (.bringupComplete f) s = .next t ∧ onlyRegs s t (fun ma => ma = 0x0010) ∧ t.reg 0x0010 = bootstat 0 0 7 0 0) ∧
    (f.isolated = [] → s.retired = [] → (∃ d, d < 4 ∧ ∀ j, j < 4 → f.hbm.getLsbD (4 * d + j) = true → ∃ b ∈ f.badStack, b.val = 4 * d + j) →
      ∃ t, exec (.bringupComplete f) s = .next t ∧ onlyRegs s t (fun ma => ma = 0x0010) ∧ t.reg 0x0010 = bootstat 0 0 8 0 0) ∧
    (f.isolated = [] → s.retired = [] → (∀ d, d < 4 → ∃ j, j < 4 ∧ f.hbm.getLsbD (4 * d + j) = true ∧ ∀ b ∈ f.badStack, b.val ≠ 4 * d + j) →
      ∃ t, exec (.bringupComplete f) s = .next t ∧
        t = { s with mgmt := t.mgmt, dies := t.dies, links := List.replicate 12 {}, hbm := t.hbm, capsLink := f.capsLink &&& 0x03FFFFFF
                     bootmask := f.bootmask, hostGroup := f.bridge.map Fin.val } ∧
        (keepsRegs s t fun ma => ma = 0x0010) ∧ bitsAt (t.reg 0x0010) 28 4 = 3 ∧
        bitsAt (t.reg 0x0010) 24 4 = (if f.badStack = [] then bitsAt (s.reg 0x0010) 24 4 else 8) ∧
        bitsAt (t.reg 0x0010) 0 24 = bitsAt (s.reg 0x0010) 0 24 ∧
        (∀ i, i < 16 → (t.hbm.getLsbD i = true ↔ f.hbm.getLsbD i = true ∧ ∀ b ∈ f.badStack, b.val ≠ i)) ∧ t.dies.length = 4 ∧
        ∀ (d : Nat) (x : Die), t.dies[d]? = some x → x.clmask = f.clmask.getD d 0 ∧ x.sliceLo = f.sliceLo.getD d 0 ∧ x.sliceHi = f.sliceHi.getD d 0 ∧
          x.step = 0 ∧ ∀ c, c < 16 → x.coremask.getD c 0 = f.coremask.getD (16 * d + c) 0)) ∧
  (∀ s (f : Fuses), s.up = false → s.powered = true → bitsAt (s.reg 0x0010) 28 3 = 3 →
    ∃ t, exec (.bringupComplete f) s = .next t ∧ t.up = true ∧ t.aperture = true ∧ t.reg 0x0010 = s.reg 0x0010 ||| 0x80000000 ∧ t.warps = s.warps ∧
      t.mem = s.mem ∧ t.dies = s.dies ∧ t.hbm = s.hbm ∧
      (∀ ma, ma ≠ 0x0010 → (∀ g, g < 16 → s.bootmask.getLsbD g = true → ma ≠ lgCtl g ∧ ma ≠ lgStat g) → t.reg ma = regReset ma) ∧
      ∀ g, g < 16 → s.bootmask.getLsbD g = true → s.hasGroup g = true →
        groupStateOf t g = 1 ∧ (t.reg (lgCtl g)).getLsbD 31 = true ∧ ((t.reg (lgCtl g)).getLsbD 29 = true ↔ s.hostGroup = some g) ∧
        ∃ x ∈ t.groupUp, x.group = g ∧ x.since = s.now) ∧
  (∀ s (f : Fuses), s.up = true → exec (.bringupComplete f) s = .next s) ∧
  (∀ s, s.up = false → s.powered = true → 2 ≤ bitsAt (s.reg 0x0010) 28 3 → s.bootAt + 480000000000 ≤ s.now →
    (bitsAt (s.reg 0x0010) 24 4 = 10 → ∃ t, exec .firmwareTimeout s = .next t ∧ onlyRegs s t (fun ma => ma = 0x0010) ∧ t.reg 0x0010 = bootstat 0 0 10 0 0) ∧
    (bitsAt (s.reg 0x0010) 24 4 ≠ 10 → ∃ t, exec .firmwareTimeout s = .next t ∧ lifeless t ∧ t.up = false ∧ t.powered = true ∧ t.now = s.now ∧
      t.slotRun = s.slotRun ∧ t.flash = s.flash ∧ t.svnMin = s.svnMin ∧ t.retired = s.retired ∧ t.reg 0x0010 = bootstat 0 1 10 0 0 ∧
      ∀ ma, ma ≠ 0x0010 → t.reg ma = regReset ma))

/-- R305, R330, R331, R354, R355, R357, R360, R402, R411, R421: management commands; peer accesses; the physical windows; what the host
reads and writes through an aperture or a window, an access of poisoned data, and one that no window decodes; a request to another package
without an answer.
The model's choices in it: log entries 20, 60, 61, 64 and 81. -/
def Obligations.HostAndManagementAccess : Prop :=
  (∀ s v, s.up = true →
    let cmd := bitsAt v 28 4
    let busy := (s.reg 0x0040).getLsbD 27 = true
    (busy → exec (.registerWrite 0x0040 v) s = .next s) ∧
    (¬busy → ∃ t, exec (.registerWrite 0x0040 v) s = .next t ∧ onlyRegs s t (fun ma => ma = 0x0040) ∧
      bitsAt (t.reg 0x0040) 0 13 = bitsAt v 0 13 ∧ bitsAt (t.reg 0x0040) 24 3 = bitsAt (s.reg 0x0040) 24 3 ∧
      ((t.reg 0x0040).getLsbD 27 = true ↔ 1 ≤ cmd ∧ cmd ≤ 4) ∧ (1 ≤ cmd → cmd ≤ 4 → bitsAt (t.reg 0x0040) 28 4 = cmd) ∧
      (t.mgmtRead 0x0040).1 = t.reg 0x0040 &&& 0x0FFFFFFF)) ∧
  (∀ s v c gi, s.up = true → runsMg s v c → namedGrid s c gi →
    let done := fun (r : Nat) => BitVec.ofNat 32 (r * 2 ^ 24 + bitsAt c 0 13)
    (bitsAt c 28 4 = 1 → ∃ t, exec (.mgcmdPreempt v) s = .next t ∧ t = { s with mgmt := t.mgmt, wgs := t.wgs } ∧ keepsRegs s t (fun ma => ma = 0x0040) ∧
      t.reg 0x0040 = done 0 ∧ t.wgs = s.wgs.map fun g => if g.grid = gi ∧ g.status ≠ .ended ∧ g.status ≠ .terminated then
        { g with byCmd := true, preempt := g.preempt || decide (g.status ≠ .evicted) } else g) ∧
    (bitsAt c 28 4 = 2 → ∃ t, exec (.mgcmdResume v) s = .next t ∧ t = { s with mgmt := t.mgmt, wgs := t.wgs } ∧ keepsRegs s t (fun ma => ma = 0x0040) ∧
      ((∃ g ∈ s.wgs, g.grid = gi ∧ g.byCmd = true) → t.reg 0x0040 = done 0 ∧ t.wgs = s.wgs.map fun g => if g.grid = gi then { g with byCmd := false } else g) ∧
      ((∀ g ∈ s.wgs, g.grid = gi → g.byCmd = false) → t.reg 0x0040 = done 2 ∧ t.wgs = s.wgs))) ∧
  (∀ s v c, s.up = true → runsMg s v c →
    (s.mgGrid (bitsAt c 0 13) = none → bitsAt c 28 4 = 1 → ∃ t, exec (.mgcmdPreempt v) s = .next t ∧ onlyRegs s t (fun ma => ma = 0x0040) ∧
      t.reg 0x0040 = BitVec.ofNat 32 (2 ^ 24 + bitsAt c 0 13)) ∧
    (s.mgGrid (bitsAt c 0 13) = none → bitsAt c 28 4 = 2 → ∃ t, exec (.mgcmdResume v) s = .next t ∧ onlyRegs s t (fun ma => ma = 0x0040) ∧
      t.reg 0x0040 = BitVec.ofNat 32 (2 ^ 24 + bitsAt c 0 13)) ∧
    (bitsAt c 28 4 = 3 → s.nonceBad = false → ∃ t, exec (.mgcmdAttest v) s = .next t ∧ t = { s with mgmt := t.mgmt, attest := t.attest } ∧
      keepsRegs s t (fun ma => ma = 0x0040) ∧ t.reg 0x0040 = BitVec.ofNat 32 (bitsAt c 0 13) ∧
      ∀ a, 0x800 ≤ a → Memory.get t.attest a = Memory.get s.attest a) ∧
    (bitsAt c 28 4 = 3 → s.nonceBad = true → ∃ t, exec (.mgcmdAttest v) s = .next t ∧ onlyRegs s t (fun ma => ma = 0x0040) ∧
      t.reg 0x0040 = BitVec.ofNat 32 (3 * 2 ^ 24 + bitsAt c 0 13)) ∧
    (bitsAt c 28 4 = 4 → ∃ t, exec (.mgcmdCommitSvnmin v) s = .next t ∧ t = { s with mgmt := t.mgmt, svnMin := bitsAt (s.reg 0x0010) 16 8 } ∧
      keepsRegs s t (fun ma => ma = 0x0040) ∧ t.reg 0x0040 = BitVec.ofNat 32 (bitsAt c 0 13))) ∧
  (∀ s v, s.up = true → v.getLsbD 31 = true → (s.reg 0x00B0).getLsbD 30 = false →
    let g := bitsAt v 0 4
    let rd := v.getLsbD 28 = false
    (groupStateOf s g = 2 → (s.reg (lgCtl g)).getLsbD 29 = false →
      ∃ t m, exec (.pxctlGo v) s = .next t ∧ t = { s with mgmt := t.mgmt, outbox := m :: s.outbox, pxSince := s.now, pxRead := decide rd } ∧ m.group = g ∧
        m.src = s.chip ∧ m.body = .peer (decide ¬rd) (s.reg 0x00B4).toNat (s.reg 0x00B8) ∧ keepsRegs s t (fun ma => ma = 0x00B0) ∧
        bitsAt (t.reg 0x00B0) 29 2 = 2) ∧
    (groupStateOf s g ≠ 2 ∨ (s.reg (lgCtl g)).getLsbD 29 = true →
      ∃ t, exec (.pxctlGo v) s = .next t ∧ onlyRegs s t (fun ma => ma = 0x00B0 ∨ ma = 0x00B8) ∧ bitsAt (t.reg 0x00B0) 29 2 = 1 ∧
        t.reg 0x00B8 = if rd then 0xFFFFFFFF else s.reg 0x00B8)) ∧
  (∀ s, (s.reg 0x00B0).getLsbD 30 = true →
    (∀ ok v, ∃ t, exec (.peerAccessAnswer ok v) s = .next t ∧ onlyRegs s t (fun ma => ma = 0x00B0 ∨ ma = 0x00B8) ∧
      bitsAt (t.reg 0x00B0) 29 2 = (if ok then 0 else 1) ∧ t.reg 0x00B8 = if s.pxRead then (if ok then v else 0xFFFFFFFF) else s.reg 0x00B8) ∧
    (s.pxSince + 16000000 ≤ s.now → ∃ t, exec .peerAccessTimeout s = .next t ∧ onlyRegs s t (fun ma => ma = 0x00B0 ∨ ma = 0x00B8) ∧
      bitsAt (t.reg 0x00B0) 29 2 = 1 ∧ t.reg 0x00B8 = if s.pxRead then 0xFFFFFFFF else s.reg 0x00B8)) ∧
  (∀ s (g : Fin 16) ma v, groupStateOf s g = 2 →
    (∃ t m, exec (.peerAccess g false ma v) s = .next t ∧ t.outbox = m :: s.outbox ∧ m.group = g.val ∧ m.body = .peerAnswer true (s.mgmtRead ma).1 ∧
      t.mem = s.mem ∧ t.warps = s.warps) ∧
    (∀ mask, s.up = true → plainReg s ma mask → ∃ t m, exec (.peerAccess g true ma v) s = .next t ∧ t = { s with mgmt := t.mgmt, outbox := m :: s.outbox } ∧
      m.group = g.val ∧ m.body = .peerAnswer true 0 ∧ keepsRegs s t (fun a => a = ma) ∧ t.reg ma = v &&& mask)) ∧
  (∀ s (d : Fin 4) off v, s.MemOk → s.up = true → off < 2 ^ 20 → off % 4 = 0 →
    let k := physKey d (bitsAt (s.reg (maDie d 0x58)) 0 20 * 2 ^ 20 + off)
    (s.fitted d k = false → exec (.physicalWindowAccess d off none) s = .next { s with replies := .mgmt 0 :: s.replies } ∧
      exec (.physicalWindowAccess d off (some v)) s = .next s) ∧
    (s.fitted d k = true → (∀ l ∈ s.slices, ∀ b, b < 4 → l.has (k + b) = false) →
      exec (.physicalWindowAccess d off none) s = .next { s with replies := .mgmt (Memory.word s.mem k) :: s.replies } ∧
      ∃ t, exec (.physicalWindowAccess d off (some v)) s = .next t ∧ t = { s with mem := t.mem, gangs := t.gangs } ∧
        Memory.word t.mem k = v ∧ ∀ a, a < k ∨ k + 4 ≤ a → Memory.get t.mem a = Memory.get s.mem a) ∧
    (s.fitted d k = true → ∀ l, s.sliceOf k = some l → (∀ x ∈ s.slices, x.key % 128 = 0) →
      (∃ w, exec (.physicalWindowAccess d off none) s = .next { s with replies := .mgmt w :: s.replies } ∧
        ∀ b, b < 4 → BitVec.ofNat 8 (w.toNat / 256 ^ b) = s.hbmByte (k + b)) ∧
      ∃ t, exec (.physicalWindowAccess d off (some v)) s = .next t ∧ t = { s with slices := t.slices, gangs := t.gangs } ∧
        ∀ b, b < 4 → t.hbmByte (k + b) = BitVec.ofNat 8 (v.toNat / 256 ^ b))) ∧
  (∀ s a, s.up = true → groupStateOf s a.group ≠ 2 ∨ (s.reg (lgCtl a.group)).getLsbD 29 = false → exec (.hostAccess a) s = .next s) ∧
  (∀ s a g, hostGroupUp s a → s.aperture = true → s.hostGroup = some g →
    (a.group.val ≠ g ∨ 2 ^ 25 < a.addr + a.len → exec (.hostAccess a) s = .next s) ∧
    (∀ mask bs, a.group.val = g → a.len = 4 → plainReg s a.addr mask → a.data = some bs → bs.length = 4 → ∃ t, exec (.hostAccess a) s = .next t ∧
      t = { s with mgmt := t.mgmt, replies := .host [] true false :: s.replies } ∧ keepsRegs s t (fun ma => ma = a.addr) ∧
      t.reg a.addr = BitVec.ofNat 32 ((List.range 4).map fun i => (bs.getD i 0).toNat * 256 ^ i).sum &&& mask)) ∧
  (∀ s a base, hostGroupUp s a → apertureAt s base → base ≤ a.addr → a.addr < base + 2 ^ 31 → a.len % 4 = 0 → (a.addr - base) % 4 = 0 →
    let c := (a.addr - base) / 2 ^ 25
    let ma := (a.addr - base) % 2 ^ 25
    (c = s.chip % 64 → a.len = 4 → a.data = none → ∃ t bs, exec (.hostAccess a) s = .next t ∧ t.mem = s.mem ∧
      t.replies = .host bs true false :: s.replies ∧ bs = (List.range 4).map fun i => BitVec.ofNat 8 ((s.mgmtRead ma).1.toNat / 256 ^ i)) ∧
    (c ≠ s.chip % 64 → s.route (s.chip / 64 * 64 + c) = .unreachable → exec (.hostAccess a) s = .next { s with
      replies := .host (if a.data.isSome then [] else List.replicate a.len 0xFF) true false :: s.replies }) ∧
    (∀ g, c ≠ s.chip % 64 → a.len = 4 → s.route (s.chip / 64 * 64 + c) = .group g → ∃ m r tag w, exec (.hostAccess a) s = .next { s with
        outbox := m :: s.outbox, devReqs := s.devReqs ++ [r] } ∧ m.group = g ∧ m.chip = s.chip / 64 * 64 + c ∧ m.src = s.chip ∧ m.body = .mgmt tag ma w ∧
      w.isSome = a.data.isSome ∧ r.use = .host a.addr)) ∧
  (∀ s a, windowsDecode s a → (∀ n, n < 16 → ¬winHolds s n a.addr) → ∃ t, exec (.hostAccess a) s = .next t ∧ hostFails s t a 1) ∧
  (∀ s a n, s.MemOk → windowsDecode s a → n < 16 → winHolds s n a.addr → (∀ m, m < n → ¬winHolds s m a.addr) →
    let chip := bitsAt (winWord s n 1) 0 20
    let asid := bitsAt (winWord s n 0) 18 13
    let va := bitsAt (winWord s n 6) 0 20 * 2 ^ 32 + bitsAt (winWord s n 5) 16 16 * 2 ^ 16 + (a.addr - winBase s n)
    a.addr + a.len ≤ winBase s n + bitsAt (winWord s n 4) 0 24 * 65536 → va % 16 + a.len ≤ 16 → va + a.len ≤ 2 ^ 52 →
    (∀ k ca cva w0, chip = s.chip → s.place asid va = .here k ca cva → a.data = none → s.walkCheck asid va false false = .ok w0 → ∃ t r bad bs,
      exec (.hostAccess a) s = .next t ∧ t = { s with mgmt := t.mgmt, replies := .host bs true bad :: s.replies, devReqs := s.devReqs ++ [r] } ∧
      bs.length = a.len ∧ (∀ i, i < a.len → bs[i]? = some (if Marks.has s.memPsn ((k + i) / 4) then 0xFF else Memory.get s.mem (k + i))) ∧
      (bad = true ↔ ∃ i, i < a.len ∧ Marks.has s.memPsn ((k + i) / 4) = true) ∧ (bad = false → t.mgmt = s.mgmt) ∧
      (bad = true → HostRecord s t a.addr 0x15 false)) ∧
    (∀ k ca cva w0 bs, chip = s.chip → s.place asid va = .here k ca cva → a.data = some bs → bs.length = a.len → s.walkCheck asid va true false = .ok w0 →
      ∃ t r, exec (.hostAccess a) s = .next t ∧
        t = { s with mem := t.mem, memPsn := t.memPsn, slices := t.slices, cores := t.cores, clusters := t.clusters
                     replies := .host [] true false :: s.replies, devReqs := s.devReqs ++ [r] } ∧
        ∀ b, Memory.get t.mem b = if k ≤ b ∧ b < k + a.len then bs.getD (b - k) 0 else Memory.get s.mem b) ∧
    (∀ cause, chip = s.chip → s.walkCheck asid va a.data.isSome false = .fail cause → ∃ t, exec (.hostAccess a) s = .next t ∧ hostFails s t a cause) ∧
    (∀ g, chip ≠ s.chip → s.route chip = .group g → a.data = none → ∃ m r tag, exec (.hostAccess a) s = .next { s with
        outbox := m :: s.outbox, devReqs := s.devReqs ++ [r] } ∧ m.group = g ∧ m.chip = chip ∧ m.src = s.chip ∧ m.body = .read tag asid va a.len ∧
      r.use = .host a.addr) ∧
    (chip ≠ s.chip → s.route chip = .unreachable → ∃ t, exec (.hostAccess a) s = .next t ∧ hostFails s t a 0x10)) ∧
  (∀ s i j o x performed chip ca cva act d z sg sl, i < 2 ^ 60 → s.ops[i]? = some o → o.acc[j]? = some x → x.stage = .remote → x.stamp + 160000000 ≤ s.now →
    s.place x.asid x.va = .foreign chip ca cva → o.kind = .mem act d z sg sl → act = .load ∨ act = .store →
    ∃ t, exec (.responseTimeout i j performed) s = .next t ∧
      t = { s with mgmt := t.mgmt, ops := t.ops } ∧ keepsRegs s t ofLinkLog ∧
      newestLink s t 9 0 (s.routeByte chip % 16) (BitVec.ofNat 32 chip) (BitVec.ofNat 32 s.chip) ∧
      let accs := o.acc.set j { x with stage := .done, psn := 15, late := true, install := false }
      (act = .load → t.ops = s.ops.set i { o with acc := accs.map fun y => { y with late := true } }) ∧
      (act = .store → t.ops = s.ops.set i { o with acc := accs })) ∧
  (∀ s n p r addr, s.devReqs[n]? = some r → r.use = .host addr → r.pieces = [p] → p.back = false → p.sent + 160000000 ≤ s.now →
    ∃ (t : State) (b : List Byte), exec (.responseTimeout (2 ^ 60 + n) 0 false) s = .next t ∧
      t = { s with mgmt := t.mgmt, replies := .host b false false :: s.replies, devReqs := t.devReqs } ∧
      b = (if r.write then [] else List.replicate p.size 0xFF) ∧ (t.devReqs[n]?).map DevReq.use = some .spent ∧
      newestLink s t 9 0 (s.routeByte p.chip % 16) (BitVec.ofNat 32 p.chip) (BitVec.ofNat 32 s.chip))

/-! ### Encodings, the step, reset, invariants -/

/-- R157 to R162, R180, R186, R188: words written out from the spec's forms and examples decode to the instructions they stand for. -/
def Obligations.DecodedWords : Prop :=
  ∀ p ∈ [([0x84381FFB], Instr.smovi 7 (-5)), ([0x84382000, 0x00010000], .smoviLiteral 7 0x10000), ([0x822041A2], .scmp .ltS 4 2 3),
      ([0x8220419A], .slea 4 2 3 2), ([0x8A400010], .srd 8 0x10), ([0x9A000064], .call 100), ([0x9D201805], .split true 1 3 5),
      ([0x97200005], .brany true 1 5), ([0x92BFFFFC], .brcNz 5 (-4)), ([0xA0000283], .trap 5), ([0xA0000005], .tfence), ([0x8640C01C], .sld 8 6 .b32 .die none)],
    decodeWords p.1 = .ok p.2

/-- R157 to R166: decoding the words of a well-formed instruction gives it back, with every operand at every value; and words that
decode to an instruction are the words of that instruction, which is well-formed: no bit of an encoding is without a meaning. -/
def Obligations.DecodeEncode : Prop :=
  (∀ i rest, i.isWord = true → wellFormed i = true → decodeWords (encode i ++ rest) = .ok i) ∧
  (∀ ws i, (∀ w ∈ ws, w < 2 ^ 32) → decodeWords ws = .ok i → i.isWord = true ∧ wellFormed i = true ∧ ws.take (encode i).length = encode i)

/-- R157, R376: the picked warp at the head, with no breakpoint, no poisoned load and no trace packet due, fetches the words at its PC; where
they are those of a well-formed instruction, the step is exec of it at that warp, after which the warp, if it does not wait, has
issued. The pick itself is used up, and with the clk's last one the clk is counted and sampled. A BINIT lets a copy command's arrival that comes
next go before it (R241).
The model's choices in it: log entries 2, 47 and 74. -/
def Obligations.StepRunsDecoded : Prop :=
  ∀ s j rest c i,
    s.picked = j :: rest → (∀ k as, s.agenda = .event (.copyCommandComplete k) :: as → ∀ x y, i ≠ .binit x y) → s.ctxAt j = some c → c.w.psnTrap = none → s.bpAt c = none → s.debugLets c = true → s.mapDue c = false →
    i.isWord = true → wellFormed i = true →
    (∀ (n : Nat) (w : Nat), (encode i)[n]? = some w →
      ∃ k a v, s.place c.gr.asid ((c.w.pc.toNat + 4 * n) % 2 ^ 52) = .here k a v ∧ (Memory.word s.mem k).toNat = w) →
    step s = match exec i { s with picked := rest, cur := j } with
      | .next t => .next (t.afterIssue j c.w.wg false).settleClk
      | o => o

/-- Reset (R60, R293, R298, R313, R317, R353, R361, R414): the registers' reset values that the spec gives; no warp runs, no work is held,
READY is clear, every log is empty.
The model's choice in it: log entry 75. -/
def Obligations.ResetValues : Prop :=
  lifeless State.reset ∧ State.reset.up = false ∧ State.reset.reg 0x0010 = 0 ∧ State.reset.tb = 0 ∧
  (∀ d, d < 4 → State.reset.reg (maDie d 0x10) = 4194304 ∧ State.reset.reg (maDie d 0x14) = 1024) ∧
  (∀ q, q < 64 → State.reset.reg (lqCtl q) = 1 ∧ State.reset.reg (lqTail q) = 0) ∧
  (∀ g, g < 16 → bitsAt (State.reset.reg (lgCtl g)) 8 8 = 128 ∧ bitsAt (State.reset.reg (lgCtl g)) 0 3 = 4 ∧ State.reset.reg (lgStat g) = 0) ∧
  State.reset.reg 0x0060 = 3200000 ∧ bitsAt (State.reset.reg 0x0030) 16 12 = 3780 ∧
  (∀ ma ∈ [0x3000, 0x3004, 0x3008, 0x3010, 0x3014, 0x3018, 0x3020, 0x3024, 0x3028, 0x0020, 0x0040, 0x0080, 0x00B0], State.reset.reg ma = 0)

/-- R6, R14, R15 and the model's own form of memory: every step, of every instruction word and every step of the part, keeps the canonical
form of the home memory and the number of dies, clusters, cores and links.
The model's choices in it: log entries 1 and 3. -/
def Obligations.StepKeepsMemoryFormAndUnits : Prop :=
  ∀ s t, s.MemOk → s.UnitsOk → step s = .next t → t.MemOk ∧ t.UnitsOk

/-- The state after reset has that form and those units, and so has the state in which a program is placed.
The model's choices in it: log entries 1 and 4. -/
def Obligations.ResetHasMemoryFormAndUnits : Prop :=
  State.reset.MemOk ∧ State.reset.UnitsOk ∧ (∀ n w, (State.reset.withFetchWord n w).UnitsOk) ∧ ∀ n w, (State.reset.withFetchWord n w).MemOk

/-- R6: n bytes stored at an address read back, least significant first; every other byte is as before; the form of memory is kept, and
two memories in that form with the same bytes are equal.
The model's choice in it: log entry 1. -/
def Obligations.MemoryReadAfterWrite : Prop :=
  (∀ m a n v, Memory.wf m = true → Memory.getN (Memory.setN m a n v) a n = v % 256 ^ n ∧ Memory.wf (Memory.setN m a n v) = true ∧
    ∀ b, b < a ∨ a + n ≤ b → Memory.get (Memory.setN m a n v) b = Memory.get m b) ∧
  (∀ m a n be v b, Memory.wf m = true → Memory.wf (Memory.setMasked m a n be v) = true ∧ Memory.get (Memory.setMasked m a n be v) b =
    if a ≤ b ∧ b < a + n ∧ be.testBit (b - a) = true then BitVec.ofNat 8 (v / 256 ^ (b - a)) else Memory.get m b) ∧
  (∀ m p, Memory.wf m = true → Memory.wf p = true → (∀ a, Memory.get m a = Memory.get p a) → m = p)

/-- R121 to R131: no instruction word writes the home memory: a store, an atomic or a command enters as an operation, and memory changes at
the steps that take it home. Nor does a word change the time, the links, what the package has sent, or the agenda.
The model's choices in it: log entries 17 and 76. -/
def Obligations.WordsLeaveHomeMemory : Prop :=
  ∀ i s t, i.isWord = true → exec i s = .next t →
    t.mem = s.mem ∧ t.memPsn = s.memPsn ∧ t.now = s.now ∧ t.tb = s.tb ∧ t.links = s.links ∧ t.outbox = s.outbox ∧ t.agenda = s.agenda ∧
      t.dies = s.dies ∧ t.cur = s.cur
end

