-- ==== Sys2Proof/Laws/Bits.lean ====
section
/-! SUPPORT. Bit fields of words: a field after it is written, and the other fields; signed readings. -/

namespace Sys2Proof.Machine

open Sys2Proof

theorem bitsOf_lt (w : Word) (lo n : Nat) : bitsOf w lo n < 2 ^ n := Nat.mod_lt _ (Nat.two_pow_pos n)

/-- A word with a field replaced, as a number: the bits above, the field, the bits below. -/
theorem setBits_toNat (w : Word) {lo n : Nat} (v : Nat) (h : lo + n ≤ 32) :
    (setBits w lo n v).toNat = w.toNat / 2 ^ (lo + n) * 2 ^ (lo + n) + v % 2 ^ n * 2 ^ lo + w.toNat % 2 ^ lo := by
  have hw : w.toNat = w.toNat / 2 ^ (lo + n) * 2 ^ (lo + n) + bitsOf w lo n * 2 ^ lo + w.toNat % 2 ^ lo := by
    have e : w.toNat / 2 ^ lo / 2 ^ n = w.toNat / 2 ^ (lo + n) := by rw [Nat.div_div_eq_div_mul, ← Nat.pow_add]
    have a := Nat.div_add_mod w.toNat (2 ^ lo)
    have b := Nat.div_add_mod (w.toNat / 2 ^ lo) (2 ^ n)
    rw [e] at b
    have : bitsOf w lo n = w.toNat / 2 ^ lo % 2 ^ n := rfl
    rw [this]
    calc w.toNat = 2 ^ lo * (w.toNat / 2 ^ lo) + w.toNat % 2 ^ lo := a.symm
      _ = 2 ^ lo * (2 ^ n * (w.toNat / 2 ^ (lo + n)) + w.toNat / 2 ^ lo % 2 ^ n) + w.toNat % 2 ^ lo := by rw [b]
      _ = _ := by generalize w.toNat / 2 ^ (lo + n) = q; rw [Nat.pow_add]; ring
  have hv : v % 2 ^ n * 2 ^ lo + w.toNat % 2 ^ lo < 2 ^ (lo + n) := by
    have h1 := Nat.mod_lt v (Nat.two_pow_pos n)
    have h2 := Nat.mod_lt w.toNat (Nat.two_pow_pos lo)
    rw [Nat.pow_add]
    calc v % 2 ^ n * 2 ^ lo + w.toNat % 2 ^ lo < v % 2 ^ n * 2 ^ lo + 2 ^ lo := by omega
      _ = (v % 2 ^ n + 1) * 2 ^ lo := by ring
      _ ≤ 2 ^ n * 2 ^ lo := Nat.mul_le_mul_right _ h1
      _ = 2 ^ lo * 2 ^ n := Nat.mul_comm ..
  have top : w.toNat / 2 ^ (lo + n) + 1 ≤ 2 ^ (32 - (lo + n)) := by
    rw [Nat.succ_le_iff, Nat.div_lt_iff_lt_mul (Nat.two_pow_pos _), ← Nat.pow_add, show 32 - (lo + n) + (lo + n) = 32 by omega]
    exact w.isLt
  have total : w.toNat / 2 ^ (lo + n) * 2 ^ (lo + n) + v % 2 ^ n * 2 ^ lo + w.toNat % 2 ^ lo < 2 ^ 32 := by
    calc _ < w.toNat / 2 ^ (lo + n) * 2 ^ (lo + n) + 2 ^ (lo + n) := by omega
      _ = (w.toNat / 2 ^ (lo + n) + 1) * 2 ^ (lo + n) := by ring
      _ ≤ 2 ^ (32 - (lo + n)) * 2 ^ (lo + n) := Nat.mul_le_mul_right _ top
      _ = 2 ^ 32 := by rw [← Nat.pow_add, show 32 - (lo + n) + (lo + n) = 32 by omega]
  rw [setBits, BitVec.toNat_ofNat, Nat.mod_eq_of_lt] <;> omega

/-- A field reads as it was written. -/
theorem bitsOf_setBits (w : Word) {lo n : Nat} (v : Nat) (h : lo + n ≤ 32) : bitsOf (setBits w lo n v) lo n = v % 2 ^ n := by
  have hl := Nat.mod_lt w.toNat (Nat.two_pow_pos lo)
  have hp := Nat.two_pow_pos lo
  have e : bitsOf (setBits w lo n v) lo n = (setBits w lo n v).toNat / 2 ^ lo % 2 ^ n := rfl
  rw [e, setBits_toNat w v h, Nat.pow_add,
    show w.toNat / (2 ^ lo * 2 ^ n) * (2 ^ lo * 2 ^ n) + v % 2 ^ n * 2 ^ lo + w.toNat % 2 ^ lo
      = w.toNat % 2 ^ lo + 2 ^ lo * (w.toNat / (2 ^ lo * 2 ^ n) * 2 ^ n + v % 2 ^ n) by ring,
    Nat.add_mul_div_left _ _ hp, Nat.div_eq_of_lt hl, Nat.zero_add, Nat.mul_add_mod_self_right, Nat.mod_mod]

/-- The fields below and above a written field keep their value. -/
theorem bitsOf_setBits_below (w : Word) {lo n k m : Nat} (v : Nat) (h : lo + n ≤ 32) (hk : k + m ≤ lo) :
    bitsOf (setBits w lo n v) k m = bitsOf w k m := by
  have e : ∀ x : Word, bitsOf x k m = x.toNat % 2 ^ lo / 2 ^ k % 2 ^ m := fun x => by
    have : bitsOf x k m = x.toNat / 2 ^ k % 2 ^ m := rfl
    obtain ⟨j, rfl⟩ : ∃ j, lo = k + (m + j) := ⟨lo - k - m, by omega⟩
    rw [this, Nat.pow_add 2 k, Nat.mod_mul_right_div_self, Nat.pow_add, Nat.mod_mul_right_mod]
  rw [e, e, setBits_toNat w v h, Nat.pow_add,
    show w.toNat / (2 ^ lo * 2 ^ n) * (2 ^ lo * 2 ^ n) + v % 2 ^ n * 2 ^ lo + w.toNat % 2 ^ lo
      = w.toNat % 2 ^ lo + 2 ^ lo * (w.toNat / (2 ^ lo * 2 ^ n) * 2 ^ n + v % 2 ^ n) by ring, Nat.add_mul_mod_self_left, Nat.mod_mod]

theorem bitsOf_setBits_above (w : Word) {lo n k m : Nat} (v : Nat) (h : lo + n ≤ 32) (hk : lo + n ≤ k) :
    bitsOf (setBits w lo n v) k m = bitsOf w k m := by
  have hv : v % 2 ^ n * 2 ^ lo + w.toNat % 2 ^ lo < 2 ^ (lo + n) := by
    have h1 := Nat.mod_lt v (Nat.two_pow_pos n)
    have h2 := Nat.mod_lt w.toNat (Nat.two_pow_pos lo)
    rw [Nat.pow_add]
    calc v % 2 ^ n * 2 ^ lo + w.toNat % 2 ^ lo < v % 2 ^ n * 2 ^ lo + 2 ^ lo := by omega
      _ = (v % 2 ^ n + 1) * 2 ^ lo := by ring
      _ ≤ 2 ^ n * 2 ^ lo := Nat.mul_le_mul_right _ h1
      _ = 2 ^ lo * 2 ^ n := Nat.mul_comm ..
  have e : ∀ x : Word, bitsOf x k m = x.toNat / 2 ^ (lo + n) / 2 ^ (k - (lo + n)) % 2 ^ m := fun x => by
    have : bitsOf x k m = x.toNat / 2 ^ k % 2 ^ m := rfl
    rw [this, Nat.div_div_eq_div_mul, ← Nat.pow_add, show lo + n + (k - (lo + n)) = k by omega]
  have q : (setBits w lo n v).toNat / 2 ^ (lo + n) = w.toNat / 2 ^ (lo + n) := by
    rw [setBits_toNat w v h, Nat.add_assoc, Nat.mul_comm, Nat.mul_add_div (Nat.two_pow_pos _), Nat.div_eq_of_lt hv, Nat.add_zero]
  rw [e, e, q]

/-- A wrapped integer is the integer modulo 2^n. -/
theorem wrap_cast (n : Nat) (x : Int) : (wrap n x : Int) = x % 2 ^ n := by
  rw [wrap, Int.toNat_of_nonneg (Int.emod_nonneg _ (by positivity))]

/-- An n-bit field read as two's complement, wrapped again, is the field. -/
theorem wrap_sext (n v : Nat) : wrap n (sext n v) = v % 2 ^ n := by
  apply Int.ofNat_inj.1
  rw [wrap_cast, sext]
  split <;> simp

end Sys2Proof.Machine
end

