-- ==== Sys2Proof/Laws/Dispatch.lean ====
section
/-! SUPPORT. exec at each constructor: the meaning its arm calls. -/

namespace Sys2Proof.Machine

open Sys2Proof

theorem exec_mov : ∀ d a g s, exec (.mov d a g) s = execMov d a g s := fun _ _ _ _ => rfl
theorem exec_movLane : ∀ d g s, exec (.movLane d g) s = execMovLane d g s := fun _ _ _ => rfl
theorem exec_movScalar : ∀ d a g s, exec (.movScalar d a g) s = execMovScalar d a g s := fun _ _ _ _ => rfl
theorem exec_movi : ∀ d imm s, exec (.movi d imm) s = execMovi d imm s := fun _ _ _ => rfl
theorem exec_moviLiteral : ∀ d lit s, exec (.moviLiteral d lit) s = execMoviLiteral d lit s := fun _ _ _ => rfl
theorem exec_add : ∀ d a b g s, exec (.add d a b g) s = execAdd d a b g s := fun _ _ _ _ _ => rfl
theorem exec_sub : ∀ d a b g s, exec (.sub d a b g) s = execSub d a b g s := fun _ _ _ _ _ => rfl
theorem exec_mul : ∀ d a b g s, exec (.mul d a b g) s = execMul d a b g s := fun _ _ _ _ _ => rfl
theorem exec_mulhU : ∀ d a b g s, exec (.mulhU d a b g) s = execMulhU d a b g s := fun _ _ _ _ _ => rfl
theorem exec_mulhS : ∀ d a b g s, exec (.mulhS d a b g) s = execMulhS d a b g s := fun _ _ _ _ _ => rfl
theorem exec_mad : ∀ d a b g s, exec (.mad d a b g) s = execMad d a b g s := fun _ _ _ _ _ => rfl
theorem exec_and : ∀ d a b g s, exec (.and d a b g) s = execAnd d a b g s := fun _ _ _ _ _ => rfl
theorem exec_or : ∀ d a b g s, exec (.or d a b g) s = execOr d a b g s := fun _ _ _ _ _ => rfl
theorem exec_xor : ∀ d a b g s, exec (.xor d a b g) s = execXor d a b g s := fun _ _ _ _ _ => rfl
theorem exec_not : ∀ d a g s, exec (.not d a g) s = execNot d a g s := fun _ _ _ _ => rfl
theorem exec_shl : ∀ d a b g s, exec (.shl d a b g) s = execShl d a b g s := fun _ _ _ _ _ => rfl
theorem exec_shr : ∀ d a b g s, exec (.shr d a b g) s = execShr d a b g s := fun _ _ _ _ _ => rfl
theorem exec_sra : ∀ d a b g s, exec (.sra d a b g) s = execSra d a b g s := fun _ _ _ _ _ => rfl
theorem exec_minU : ∀ d a b g s, exec (.minU d a b g) s = execMinU d a b g s := fun _ _ _ _ _ => rfl
theorem exec_minS : ∀ d a b g s, exec (.minS d a b g) s = execMinS d a b g s := fun _ _ _ _ _ => rfl
theorem exec_maxU : ∀ d a b g s, exec (.maxU d a b g) s = execMaxU d a b g s := fun _ _ _ _ _ => rfl
theorem exec_maxS : ∀ d a b g s, exec (.maxS d a b g) s = execMaxS d a b g s := fun _ _ _ _ _ => rfl
theorem exec_abs : ∀ d a g s, exec (.abs d a g) s = execAbs d a g s := fun _ _ _ _ => rfl
theorem exec_neg : ∀ d a g s, exec (.neg d a g) s = execNeg d a g s := fun _ _ _ _ => rfl
theorem exec_clz : ∀ d a g s, exec (.clz d a g) s = execClz d a g s := fun _ _ _ _ => rfl
theorem exec_popc : ∀ d a g s, exec (.popc d a g) s = execPopc d a g s := fun _ _ _ _ => rfl
theorem exec_bfeU : ∀ d a b g s, exec (.bfeU d a b g) s = execBfeU d a b g s := fun _ _ _ _ _ => rfl
theorem exec_bfeS : ∀ d a b g s, exec (.bfeS d a b g) s = execBfeS d a b g s := fun _ _ _ _ _ => rfl
theorem exec_bfi : ∀ d a b g s, exec (.bfi d a b g) s = execBfi d a b g s := fun _ _ _ _ _ => rfl
theorem exec_sel : ∀ d a b g q s, exec (.sel d a b g q) s = execSel d a b g q s := fun _ _ _ _ _ _ => rfl
theorem exec_cmpU32 : ∀ cc d a b g s, exec (.cmpU32 cc d a b g) s = execCmpU32 cc d a b g s := fun _ _ _ _ _ _ => rfl
theorem exec_cmpS32 : ∀ cc d a b g s, exec (.cmpS32 cc d a b g) s = execCmpS32 cc d a b g s := fun _ _ _ _ _ _ => rfl
theorem exec_pand : ∀ d a b g s, exec (.pand d a b g) s = execPand d a b g s := fun _ _ _ _ _ => rfl
theorem exec_por : ∀ d a b g s, exec (.por d a b g) s = execPor d a b g s := fun _ _ _ _ _ => rfl
theorem exec_pnot : ∀ d a g s, exec (.pnot d a g) s = execPnot d a g s := fun _ _ _ _ => rfl
theorem exec_shflIdx : ∀ d a b g s, exec (.shflIdx d a b g) s = execShflIdx d a b g s := fun _ _ _ _ _ => rfl
theorem exec_shflUp : ∀ d a b g s, exec (.shflUp d a b g) s = execShflUp d a b g s := fun _ _ _ _ _ => rfl
theorem exec_shflDown : ∀ d a b g s, exec (.shflDown d a b g) s = execShflDown d a b g s := fun _ _ _ _ _ => rfl
theorem exec_shflXor : ∀ d a b g s, exec (.shflXor d a b g) s = execShflXor d a b g s := fun _ _ _ _ _ => rfl
theorem exec_voteAny : ∀ d a g s, exec (.voteAny d a g) s = execVoteAny d a g s := fun _ _ _ _ => rfl
theorem exec_voteAll : ∀ d a g s, exec (.voteAll d a g) s = execVoteAll d a g s := fun _ _ _ _ => rfl
theorem exec_voteBallot : ∀ d a g s, exec (.voteBallot d a g) s = execVoteBallot d a g s := fun _ _ _ _ => rfl
theorem exec_voteEq : ∀ d a g s, exec (.voteEq d a g) s = execVoteEq d a g s := fun _ _ _ _ => rfl
theorem exec_fadd : ∀ d a b g s, exec (.fadd d a b g) s = execFadd d a b g s := fun _ _ _ _ _ => rfl
theorem exec_fsub : ∀ d a b g s, exec (.fsub d a b g) s = execFsub d a b g s := fun _ _ _ _ _ => rfl
theorem exec_fmul : ∀ d a b g s, exec (.fmul d a b g) s = execFmul d a b g s := fun _ _ _ _ _ => rfl
theorem exec_ffma : ∀ d a b g s, exec (.ffma d a b g) s = execFfma d a b g s := fun _ _ _ _ _ => rfl
theorem exec_fmin : ∀ d a b g s, exec (.fmin d a b g) s = execFmin d a b g s := fun _ _ _ _ _ => rfl
theorem exec_fmax : ∀ d a b g s, exec (.fmax d a b g) s = execFmax d a b g s := fun _ _ _ _ _ => rfl
theorem exec_fcmp : ∀ cc d a b g s, exec (.fcmp cc d a b g) s = execFcmp cc d a b g s := fun _ _ _ _ _ _ => rfl
theorem exec_frcp : ∀ d a g s, exec (.frcp d a g) s = execFrcp d a g s := fun _ _ _ _ => rfl
theorem exec_frsq : ∀ d a g s, exec (.frsq d a g) s = execFrsq d a g s := fun _ _ _ _ => rfl
theorem exec_fsqrt : ∀ d a g s, exec (.fsqrt d a g) s = execFsqrt d a g s := fun _ _ _ _ => rfl
theorem exec_fexp2 : ∀ d a g s, exec (.fexp2 d a g) s = execFexp2 d a g s := fun _ _ _ _ => rfl
theorem exec_flog2 : ∀ d a g s, exec (.flog2 d a g) s = execFlog2 d a g s := fun _ _ _ _ => rfl
theorem exec_ftanh : ∀ d a g s, exec (.ftanh d a g) s = execFtanh d a g s := fun _ _ _ _ => rfl
theorem exec_cvt : ∀ d a e f g m s, exec (.cvt d a e f g m) s = execCvt d a e f g m s := fun _ _ _ _ _ _ _ => rfl
theorem exec_dot2Bf16 : ∀ d a b g s, exec (.dot2Bf16 d a b g) s = execDot2Bf16 d a b g s := fun _ _ _ _ _ => rfl
theorem exec_dot4Fp8 : ∀ d a b g s, exec (.dot4Fp8 d a b g) s = execDot4Fp8 d a b g s := fun _ _ _ _ _ => rfl
theorem exec_dot8N4o : ∀ d a b g s, exec (.dot8N4o d a b g) s = execDot8N4o d a b g s := fun _ _ _ _ _ => rfl
theorem exec_n4pack : ∀ d a b g s, exec (.n4pack d a b g) s = execN4pack d a b g s := fun _ _ _ _ _ => rfl
theorem exec_n4unp : ∀ d a g s, exec (.n4unp d a g) s = execN4unp d a g s := fun _ _ _ _ => rfl
theorem exec_sclx : ∀ d a b g s, exec (.sclx d a b g) s = execSclx d a b g s := fun _ _ _ _ _ => rfl
theorem exec_ld : ∀ d m sz sp s, exec (.ld d m sz sp) s = execLd d m sz sp s := fun _ _ _ _ _ => rfl
theorem exec_st : ∀ d m sz sp s, exec (.st d m sz sp) s = execSt d m sz sp s := fun _ _ _ _ _ => rfl
theorem exec_lds : ∀ d m sz sc s, exec (.lds d m sz sc) s = execLds d m sz sc s := fun _ _ _ _ _ => rfl
theorem exec_sts : ∀ d m sz sc s, exec (.sts d m sz sc) s = execSts d m sz sc s := fun _ _ _ _ _ => rfl
theorem exec_atom : ∀ d m op sc s, exec (.atom d m op sc) s = execAtom d m op sc s := fun _ _ _ _ _ => rfl
theorem exec_red : ∀ d m op sc s, exec (.red d m op sc) s = execRed d m op sc s := fun _ _ _ _ _ => rfl
theorem exec_atomcas : ∀ d m sz sc s, exec (.atomcas d m sz sc) s = execAtomcas d m sz sc s := fun _ _ _ _ _ => rfl
theorem exec_smov : ∀ d a s, exec (.smov d a) s = execSmov d a s := fun _ _ _ => rfl
theorem exec_sadd : ∀ d a b s, exec (.sadd d a b) s = execSadd d a b s := fun _ _ _ _ => rfl
theorem exec_ssub : ∀ d a b s, exec (.ssub d a b) s = execSsub d a b s := fun _ _ _ _ => rfl
theorem exec_smul : ∀ d a b s, exec (.smul d a b) s = execSmul d a b s := fun _ _ _ _ => rfl
theorem exec_smulhU : ∀ d a b s, exec (.smulhU d a b) s = execSmulhU d a b s := fun _ _ _ _ => rfl
theorem exec_smulhS : ∀ d a b s, exec (.smulhS d a b) s = execSmulhS d a b s := fun _ _ _ _ => rfl
theorem exec_sdivu : ∀ d a b s, exec (.sdivu d a b) s = execSdivu d a b s := fun _ _ _ _ => rfl
theorem exec_sremu : ∀ d a b s, exec (.sremu d a b) s = execSremu d a b s := fun _ _ _ _ => rfl
theorem exec_sand : ∀ d a b s, exec (.sand d a b) s = execSand d a b s := fun _ _ _ _ => rfl
theorem exec_sor : ∀ d a b s, exec (.sor d a b) s = execSor d a b s := fun _ _ _ _ => rfl
theorem exec_sxor : ∀ d a b s, exec (.sxor d a b) s = execSxor d a b s := fun _ _ _ _ => rfl
theorem exec_snot : ∀ d a s, exec (.snot d a) s = execSnot d a s := fun _ _ _ => rfl
theorem exec_sshl : ∀ d a b s, exec (.sshl d a b) s = execSshl d a b s := fun _ _ _ _ => rfl
theorem exec_sshr : ∀ d a b s, exec (.sshr d a b) s = execSshr d a b s := fun _ _ _ _ => rfl
theorem exec_ssra : ∀ d a b s, exec (.ssra d a b) s = execSsra d a b s := fun _ _ _ _ => rfl
theorem exec_sminU : ∀ d a b s, exec (.sminU d a b) s = execSminU d a b s := fun _ _ _ _ => rfl
theorem exec_sminS : ∀ d a b s, exec (.sminS d a b) s = execSminS d a b s := fun _ _ _ _ => rfl
theorem exec_smaxU : ∀ d a b s, exec (.smaxU d a b) s = execSmaxU d a b s := fun _ _ _ _ => rfl
theorem exec_smaxS : ∀ d a b s, exec (.smaxS d a b) s = execSmaxS d a b s := fun _ _ _ _ => rfl
theorem exec_sclz : ∀ d a s, exec (.sclz d a) s = execSclz d a s := fun _ _ _ => rfl
theorem exec_spopc : ∀ d a s, exec (.spopc d a) s = execSpopc d a s := fun _ _ _ => rfl
theorem exec_ssel : ∀ d a b s, exec (.ssel d a b) s = execSsel d a b s := fun _ _ _ _ => rfl
theorem exec_slea : ∀ d a b n s, exec (.slea d a b n) s = execSlea d a b n s := fun _ _ _ _ _ => rfl
theorem exec_scmp : ∀ cc d a b s, exec (.scmp cc d a b) s = execScmp cc d a b s := fun _ _ _ _ _ => rfl
theorem exec_smovi : ∀ d imm s, exec (.smovi d imm) s = execSmovi d imm s := fun _ _ _ => rfl
theorem exec_smoviLiteral : ∀ d lit s, exec (.smoviLiteral d lit) s = execSmoviLiteral d lit s := fun _ _ _ => rfl
theorem exec_sld : ∀ d a sz sc off s, exec (.sld d a sz sc off) s = execSld d a sz sc off s := fun _ _ _ _ _ _ => rfl
theorem exec_sst : ∀ d a sz sc off s, exec (.sst d a sz sc off) s = execSst d a sz sc off s := fun _ _ _ _ _ _ => rfl
theorem exec_srd : ∀ d n s, exec (.srd d n) s = execSrd d n s := fun _ _ _ => rfl
theorem exec_swr : ∀ a n s, exec (.swr a n) s = execSwr a n s := fun _ _ _ => rfl
theorem exec_emrd : ∀ d s, exec (.emrd d) s = execEmrd d s := fun _ _ => rfl
theorem exec_emwr : ∀ a s, exec (.emwr a) s = execEmwr a s := fun _ _ => rfl
theorem exec_sfmt : ∀ a s, exec (.sfmt a) s = execSfmt a s := fun _ _ => rfl
theorem exec_sfmtLiteral : ∀ lit s, exec (.sfmtLiteral lit) s = execSfmtLiteral lit s := fun _ _ => rfl
theorem exec_sfmtrd : ∀ d s, exec (.sfmtrd d) s = execSfmtrd d s := fun _ _ => rfl
theorem exec_bra : ∀ off s, exec (.bra off) s = execBra off s := fun _ _ => rfl
theorem exec_brcNz : ∀ c off s, exec (.brcNz c off) s = execBrcNz c off s := fun _ _ _ => rfl
theorem exec_brcZ : ∀ c off s, exec (.brcZ c off) s = execBrcZ c off s := fun _ _ _ => rfl
theorem exec_brany : ∀ inv p off s, exec (.brany inv p off) s = execBrany inv p off s := fun _ _ _ _ => rfl
theorem exec_brall : ∀ inv p off s, exec (.brall inv p off) s = execBrall inv p off s := fun _ _ _ _ => rfl
theorem exec_call : ∀ off s, exec (.call off) s = execCall off s := fun _ _ => rfl
theorem exec_split : ∀ inv p e j s, exec (.split inv p e j) s = execSplit inv p e j s := fun _ _ _ _ _ => rfl
theorem exec_ret : ∀ s, exec .ret s = execRet s := fun _ => rfl
theorem exec_join : ∀ s, exec .join s = execJoin s := fun _ => rfl
theorem exec_snop : ∀ s, exec .snop s = execSnop s := fun _ => rfl
theorem exec_yield : ∀ s, exec .yield s = execYield s := fun _ => rfl
theorem exec_exit : ∀ s, exec .exit s = execExit s := fun _ => rfl
theorem exec_trap : ∀ code s, exec (.trap code) s = execTrap code s := fun _ _ => rfl
theorem exec_rtt : ∀ s, exec .rtt s = execRtt s := fun _ => rfl
theorem exec_tfence : ∀ s, exec .tfence s = execTfence s := fun _ => rfl
theorem exec_temit : ∀ a b s, exec (.temit a b) s = execTemit a b s := fun _ _ _ => rfl
theorem exec_time : ∀ d s, exec (.time d) s = execTime d s := fun _ _ => rfl
theorem exec_kfork : ∀ d a s, exec (.kfork d a) s = execKfork d a s := fun _ _ _ => rfl
theorem exec_kjoin : ∀ d a b s, exec (.kjoin d a b) s = execKjoin d a b s := fun _ _ _ _ => rfl
theorem exec_krel : ∀ d s, exec (.krel d) s = execKrel d s := fun _ _ => rfl
theorem exec_kwait : ∀ a sc s, exec (.kwait a sc) s = execKwait a sc s := fun _ _ _ => rfl
theorem exec_kall : ∀ sc s, exec (.kall sc) s = execKall sc s := fun _ _ => rfl
theorem exec_ksend : ∀ a b sc s, exec (.ksend a b sc) s = execKsend a b sc s := fun _ _ _ _ => rfl
theorem exec_krecv : ∀ d a s, exec (.krecv d a) s = execKrecv d a s := fun _ _ _ => rfl
theorem exec_krecvTry : ∀ d a s, exec (.krecvTry d a) s = execKrecvTry d a s := fun _ _ _ => rfl
theorem exec_kqry : ∀ d a s, exec (.kqry d a) s = execKqry d a s := fun _ _ _ => rfl
theorem exec_ksteal : ∀ d a sc s, exec (.ksteal d a sc) s = execKsteal d a sc s := fun _ _ _ _ => rfl
theorem exec_binit : ∀ d a s, exec (.binit d a) s = execBinit d a s := fun _ _ _ => rfl
theorem exec_barr : ∀ d a s, exec (.barr d a) s = execBarr d a s := fun _ _ _ => rfl
theorem exec_barrLeave : ∀ d a s, exec (.barrLeave d a) s = execBarrLeave d a s := fun _ _ _ => rfl
theorem exec_bwait : ∀ d a par s, exec (.bwait d a par) s = execBwait d a par s := fun _ _ _ _ => rfl
theorem exec_bqry : ∀ d a s, exec (.bqry d a) s = execBqry d a s := fun _ _ _ => rfl
theorem exec_mcjoin : ∀ d a b pool s, exec (.mcjoin d a b pool) s = execMcjoin d a b pool s := fun _ _ _ _ _ => rfl
theorem exec_mcleave : ∀ d pool s, exec (.mcleave d pool) s = execMcleave d pool s := fun _ _ _ => rfl
theorem exec_role : ∀ d n s, exec (.role d n) s = execRole d n s := fun _ _ _ => rfl
theorem exec_mcld : ∀ x y pool k c off s, exec (.mcld x y pool k c off) s = execMcld x y pool k c off s := fun _ _ _ _ _ _ _ => rfl
theorem exec_amsend : ∀ x y h k c s, exec (.amsend x y h k c) s = execAmsend x y h k c s := fun _ _ _ _ _ _ => rfl
theorem exec_nred : ∀ x y op k c tmo s, exec (.nred x y op k c tmo) s = execNred x y op k c tmo s := fun _ _ _ _ _ _ _ => rfl
theorem exec_launch : ∀ x sc k c s, exec (.launch x sc k c) s = execLaunch x sc k c s := fun _ _ _ _ _ => rfl
theorem exec_tcfg : ∀ x y k c s, exec (.tcfg x y k c) s = execTcfg x y k c s := fun _ _ _ _ _ => rfl
theorem exec_tlda : ∀ x y k c pitch s, exec (.tlda x y k c pitch) s = execTlda x y k c pitch s := fun _ _ _ _ _ _ => rfl
theorem exec_tldb : ∀ x y k c pitch s, exec (.tldb x y k c pitch) s = execTldb x y k c pitch s := fun _ _ _ _ _ _ => rfl
theorem exec_mma : ∀ x y z k c mode s, exec (.mma x y z k c mode) s = execMma x y z k c mode s := fun _ _ _ _ _ _ _ => rfl
theorem exec_tzero : ∀ x k c s, exec (.tzero x k c) s = execTzero x k c s := fun _ _ _ _ => rfl
theorem exec_tst : ∀ x y k c pitch s, exec (.tst x y k c pitch) s = execTst x y k c pitch s := fun _ _ _ _ _ _ => rfl
theorem exec_tcvt : ∀ x y k c cw s, exec (.tcvt x y k c cw) s = execTcvt x y k c cw s := fun _ _ _ _ _ _ => rfl
theorem exec_ascan : ∀ x y z k c s, exec (.ascan x y z k c) s = execAscan x y z k c s := fun _ _ _ _ _ _ => rfl
theorem exec_cld : ∀ x y k c s, exec (.cld x y k c) s = execCld x y k c s := fun _ _ _ _ _ => rfl
theorem exec_cst : ∀ x y k c s, exec (.cst x y k c) s = execCst x y k c s := fun _ _ _ _ _ => rfl
theorem exec_cpyLd : ∀ x y k c off s, exec (.cpyLd x y k c off) s = execCpyLd x y k c off s := fun _ _ _ _ _ _ => rfl
theorem exec_cpySt : ∀ x y k c off s, exec (.cpySt x y k c off) s = execCpySt x y k c off s := fun _ _ _ _ _ _ => rfl
theorem exec_cpysLd : ∀ x y k c gp s, exec (.cpysLd x y k c gp) s = execCpysLd x y k c gp s := fun _ _ _ _ _ _ => rfl
theorem exec_cpysSt : ∀ x y k c gp s, exec (.cpysSt x y k c gp) s = execCpysSt x y k c gp s := fun _ _ _ _ _ _ => rfl
theorem exec_cpyc : ∀ x y k c off s, exec (.cpyc x y k c off) s = execCpyc x y k c off s := fun _ _ _ _ _ _ => rfl
theorem exec_cpyg : ∀ x y k c off s, exec (.cpyg x y k c off) s = execCpyg x y k c off s := fun _ _ _ _ _ _ => rfl
theorem exec_cpyx : ∀ x y k c off s, exec (.cpyx x y k c off) s = execCpyx x y k c off s := fun _ _ _ _ _ _ => rfl
theorem exec_rinit : ∀ x y s, exec (.rinit x y) s = execRinit x y s := fun _ _ _ => rfl
theorem exec_rputAcq : ∀ x y k s, exec (.rputAcq x y k) s = execRputAcq x y k s := fun _ _ _ _ => rfl
theorem exec_rputCmt : ∀ x y c s, exec (.rputCmt x y c) s = execRputCmt x y c s := fun _ _ _ _ => rfl
theorem exec_rgetAcq : ∀ x y k s, exec (.rgetAcq x y k) s = execRgetAcq x y k s := fun _ _ _ _ => rfl
theorem exec_rgetRel : ∀ x y c s, exec (.rgetRel x y c) s = execRgetRel x y c s := fun _ _ _ _ => rfl
theorem exec_ringAcquireGrant : ∀ wg ring consumer s, exec (.ringAcquireGrant wg ring consumer) s = execRingAcquireGrant wg ring consumer s := fun _ _ _ _ => rfl
theorem exec_growGrant : ∀ wg s, exec (.growGrant wg) s = execGrowGrant wg s := fun _ _ => rfl
theorem exec_growFail : ∀ wg s, exec (.growFail wg) s = execGrowFail wg s := fun _ _ => rfl
theorem exec_operationComplete : ∀ op s, exec (.operationComplete op) s = execOperationComplete op s := fun _ _ => rfl
theorem exec_loadValueFixed : ∀ op s, exec (.loadValueFixed op) s = execLoadValueFixed op s := fun _ _ => rfl
theorem exec_engineCommandStart : ∀ op s, exec (.engineCommandStart op) s = execEngineCommandStart op s := fun _ _ => rfl
theorem exec_engineCommandComplete : ∀ op s, exec (.engineCommandComplete op) s = execEngineCommandComplete op s := fun _ _ => rfl
theorem exec_copyCommandComplete : ∀ op s, exec (.copyCommandComplete op) s = execCopyCommandComplete op s := fun _ _ => rfl
theorem exec_frameAllocation : ∀ asid va s, exec (.frameAllocation asid va) s = execFrameAllocation asid va s := fun _ _ _ => rfl
theorem exec_acbProbeReply : ∀ core asid va s, exec (.acbProbeReply core asid va) s = execAcbProbeReply core asid va s := fun _ _ _ _ => rfl
theorem exec_mappingChange : ∀ asid va entry release s, exec (.mappingChange asid va entry release) s = execMappingChange asid va entry release s := fun _ _ _ _ _ => rfl
theorem exec_homeRequest : ∀ op acc s, exec (.homeRequest op acc) s = execHomeRequest op acc s := fun _ _ _ => rfl
theorem exec_atomicRequest : ∀ i s, exec (.atomicRequest i) s = execAtomicRequest i s := fun _ _ => rfl
theorem exec_combineWindowExpiry : ∀ cluster i s, exec (.combineWindowExpiry cluster i) s = execCombineWindowExpiry cluster i s := fun _ _ _ => rfl
theorem exec_wcbIdleDrain : ∀ core asid line s, exec (.wcbIdleDrain core asid line) s = execWcbIdleDrain core asid line s := fun _ _ _ _ => rfl
theorem exec_responseArrival : ∀ op acc s, exec (.responseArrival op acc) s = execResponseArrival op acc s := fun _ _ _ => rfl
theorem exec_responseTimeout : ∀ op acc performed s, exec (.responseTimeout op acc performed) s = execResponseTimeout op acc performed s := fun _ _ _ _ => rfl
theorem exec_stealPromotion : ∀ op s, exec (.stealPromotion op) s = execStealPromotion op s := fun _ _ => rfl
theorem exec_messageSend : ∀ msg s, exec (.messageSend msg) s = execMessageSend msg s := fun _ _ => rfl
theorem exec_spliceArrival : ∀ msg s, exec (.spliceArrival msg) s = execSpliceArrival msg s := fun _ _ => rfl
theorem exec_completionNotice : ∀ die op sc s, exec (.completionNotice die op sc) s = execCompletionNotice die op sc s := fun _ _ _ _ => rfl
theorem exec_activeMessageArrival : ∀ msg s, exec (.activeMessageArrival msg) s = execActiveMessageArrival msg s := fun _ _ => rfl
theorem exec_handlerWarpStart : ∀ msg s, exec (.handlerWarpStart msg) s = execHandlerWarpStart msg s := fun _ _ => rfl
theorem exec_mcldArrival : ∀ op s, exec (.mcldArrival op) s = execMcldArrival op s := fun _ _ => rfl
theorem exec_poolHoldTimeout : ∀ hold s, exec (.poolHoldTimeout hold) s = execPoolHoldTimeout hold s := fun _ _ => rfl
theorem exec_poolRead : ∀ hold s, exec (.poolRead hold) s = execPoolRead hold s := fun _ _ => rfl
theorem exec_poolFillLand : ∀ op s, exec (.poolFillLand op) s = execPoolFillLand op s := fun _ _ => rfl
theorem exec_nredContribution : ∀ op s, exec (.nredContribution op) s = execNredContribution op s := fun _ _ => rfl
theorem exec_nredTimeout : ∀ inst s, exec (.nredTimeout inst) s = execNredTimeout inst s := fun _ _ => rfl
theorem exec_timeReply : ∀ op s, exec (.timeReply op) s = execTimeReply op s := fun _ _ => rfl
theorem exec_launchEntrySend : ∀ wg s, exec (.launchEntrySend wg) s = execLaunchEntrySend wg s := fun _ _ => rfl
theorem exec_distributorDecision : ∀ s, exec .distributorDecision s = execDistributorDecision s := fun _ => rfl
theorem exec_launchRecordRead : ∀ src s, exec (.launchRecordRead src) s = execLaunchRecordRead src s := fun _ _ => rfl
theorem exec_holdPlacement : ∀ grid s, exec (.holdPlacement grid) s = execHoldPlacement grid s := fun _ _ => rfl
theorem exec_gridRelease : ∀ grid s, exec (.gridRelease grid) s = execGridRelease grid s := fun _ _ => rfl
theorem exec_gridCompletionSignal : ∀ grid s, exec (.gridCompletionSignal grid) s = execGridCompletionSignal grid s := fun _ _ => rfl
theorem exec_workgroupEvict : ∀ wg s, exec (.workgroupEvict wg) s = execWorkgroupEvict wg s := fun _ _ => rfl
theorem exec_workgroupRestore : ∀ wg s, exec (.workgroupRestore wg) s = execWorkgroupRestore wg s := fun _ _ => rfl
theorem exec_watchdogExpiry : ∀ core s, exec (.watchdogExpiry core) s = execWatchdogExpiry core s := fun _ _ => rfl
theorem exec_starvation : ∀ warp s, exec (.starvation warp) s = execStarvation warp s := fun _ _ => rfl
theorem exec_breakpointHit : ∀ warp bp s, exec (.breakpointHit warp bp) s = execBreakpointHit warp bp s := fun _ _ _ => rfl
theorem exec_stopDump : ∀ cluster s, exec (.stopDump cluster) s = execStopDump cluster s := fun _ _ => rfl
theorem exec_stepEnd : ∀ cluster s, exec (.stepEnd cluster) s = execStepEnd cluster s := fun _ _ => rfl
theorem exec_dbgcmdStop : ∀ cluster s, exec (.dbgcmdStop cluster) s = execDbgcmdStop cluster s := fun _ _ => rfl
theorem exec_dbgcmdResume : ∀ cluster s, exec (.dbgcmdResume cluster) s = execDbgcmdResume cluster s := fun _ _ => rfl
theorem exec_dbgcmdResumeLoad : ∀ cluster s, exec (.dbgcmdResumeLoad cluster) s = execDbgcmdResumeLoad cluster s := fun _ _ => rfl
theorem exec_dbgcmdStep : ∀ cluster s, exec (.dbgcmdStep cluster) s = execDbgcmdStep cluster s := fun _ _ => rfl
theorem exec_traceDrain : ∀ cluster s, exec (.traceDrain cluster) s = execTraceDrain cluster s := fun _ _ => rfl
theorem exec_stallCountOverflow : ∀ cluster entry s, exec (.stallCountOverflow cluster entry) s = execStallCountOverflow cluster entry s := fun _ _ _ => rfl
theorem exec_flitReceive : ∀ group header crcOk body s, exec (.flitReceive group header crcOk body) s = execFlitReceive group header crcOk body s := fun _ _ _ _ _ => rfl
theorem exec_hostAccess : ∀ a s, exec (.hostAccess a) s = execHostAccess a s := fun _ _ => rfl
theorem exec_ptpMessage : ∀ group head kind s, exec (.ptpMessage group head kind) s = execPtpMessage group head kind s := fun _ _ _ _ => rfl
theorem exec_timelockLoss : ∀ s, exec .timelockLoss s = execTimelockLoss s := fun _ => rfl
theorem exec_centreLinkMeasure : ∀ die counts s, exec (.centreLinkMeasure die counts) s = execCentreLinkMeasure die counts s := fun _ _ _ => rfl
theorem exec_laneFailure : ∀ link lane s, exec (.laneFailure link lane) s = execLaneFailure link lane s := fun _ _ _ => rfl
theorem exec_linkRetrainDone : ∀ link s, exec (.linkRetrainDone link) s = execLinkRetrainDone link s := fun _ _ => rfl
theorem exec_frequencySwitch : ∀ die s, exec (.frequencySwitch die) s = execFrequencySwitch die s := fun _ _ => rfl
theorem exec_fibreGroupLoss : ∀ group fibre lambda s, exec (.fibreGroupLoss group fibre lambda) s = execFibreGroupLoss group fibre lambda s := fun _ _ _ _ => rfl
theorem exec_linkTrainingDone : ∀ group s, exec (.linkTrainingDone group) s = execLinkTrainingDone group s := fun _ _ => rfl
theorem exec_groupTrainingTimeout : ∀ group s, exec (.groupTrainingTimeout group) s = execGroupTrainingTimeout group s := fun _ _ => rfl
theorem exec_tokenRegenerate : ∀ die channel s, exec (.tokenRegenerate die channel) s = execTokenRegenerate die channel s := fun _ _ _ => rfl
theorem exec_powerControlTick : ∀ power heaviest s, exec (.powerControlTick power heaviest) s = execPowerControlTick power heaviest s := fun _ _ _ => rfl
theorem exec_dieClockGate : ∀ die s, exec (.dieClockGate die) s = execDieClockGate die s := fun _ _ => rfl
theorem exec_thermalHold : ∀ die temp s, exec (.thermalHold die temp) s = execThermalHold die temp s := fun _ _ _ => rfl
theorem exec_thermalTrip : ∀ die temp s, exec (.thermalTrip die temp) s = execThermalTrip die temp s := fun _ _ _ => rfl
theorem exec_powerGood : ∀ slot0 slot1 s, exec (.powerGood slot0 slot1) s = execPowerGood slot0 slot1 s := fun _ _ _ => rfl
theorem exec_bringupComplete : ∀ f s, exec (.bringupComplete f) s = execBringupComplete f s := fun _ _ => rfl
theorem exec_firmwareTimeout : ∀ s, exec .firmwareTimeout s = execFirmwareTimeout s := fun _ => rfl
theorem exec_mgcmdPreempt : ∀ v s, exec (.mgcmdPreempt v) s = execMgcmdPreempt v s := fun _ _ => rfl
theorem exec_mgcmdResume : ∀ v s, exec (.mgcmdResume v) s = execMgcmdResume v s := fun _ _ => rfl
theorem exec_mgcmdAttest : ∀ v s, exec (.mgcmdAttest v) s = execMgcmdAttest v s := fun _ _ => rfl
theorem exec_mgcmdCommitSvnmin : ∀ v s, exec (.mgcmdCommitSvnmin v) s = execMgcmdCommitSvnmin v s := fun _ _ => rfl
theorem exec_pxctlGo : ∀ v s, exec (.pxctlGo v) s = execPxctlGo v s := fun _ _ => rfl
theorem exec_peerAccess : ∀ group write ma data s, exec (.peerAccess group write ma data) s = execPeerAccess group write ma data s := fun _ _ _ _ _ => rfl
theorem exec_peerAccessTimeout : ∀ s, exec .peerAccessTimeout s = execPeerAccessTimeout s := fun _ => rfl
theorem exec_chipidWrite : ∀ v s, exec (.chipidWrite v) s = execChipidWrite v s := fun _ _ => rfl
theorem exec_lqctlWrite : ∀ q v s, exec (.lqctlWrite q v) s = execLqctlWrite q v s := fun _ _ _ => rfl
theorem exec_lqtailWrite : ∀ q v s, exec (.lqtailWrite q v) s = execLqtailWrite q v s := fun _ _ _ => rfl
theorem exec_lgctlWrite : ∀ g v s, exec (.lgctlWrite g v) s = execLgctlWrite g v s := fun _ _ _ => rfl
theorem exec_mgaploWrite : ∀ v s, exec (.mgaploWrite v) s = execMgaploWrite v s := fun _ _ => rfl
theorem exec_fladdWrite : ∀ die list v s, exec (.fladdWrite die list v) s = execFladdWrite die list v s := fun _ _ _ _ => rfl
theorem exec_trctlWrite : ∀ cluster v s, exec (.trctlWrite cluster v) s = execTrctlWrite cluster v s := fun _ _ _ => rfl
theorem exec_trrpWrite : ∀ cluster v s, exec (.trrpWrite cluster v) s = execTrrpWrite cluster v s := fun _ _ _ => rfl
theorem exec_stctlSpillAll : ∀ cluster v s, exec (.stctlSpillAll cluster v) s = execStctlSpillAll cluster v s := fun _ _ _ => rfl
theorem exec_strpWrite : ∀ cluster v s, exec (.strpWrite cluster v) s = execStrpWrite cluster v s := fun _ _ _ => rfl
theorem exec_retireWrite : ∀ v s, exec (.retireWrite v) s = execRetireWrite v s := fun _ _ => rfl
theorem exec_ecclrWrite : ∀ core v s, exec (.ecclrWrite core v) s = execEcclrWrite core v s := fun _ _ _ => rfl
theorem exec_tbloRead : ∀ s, exec .tbloRead s = execTbloRead s := fun _ => rfl
theorem exec_stallCounterRead : ∀ core engine cause s, exec (.stallCounterRead core engine cause) s = execStallCounterRead core engine cause s := fun _ _ _ _ => rfl
theorem exec_trdropRead : ∀ cluster s, exec (.trdropRead cluster) s = execTrdropRead cluster s := fun _ _ => rfl
theorem exec_stlostRead : ∀ cluster s, exec (.stlostRead cluster) s = execStlostRead cluster s := fun _ _ => rfl
theorem exec_ellostRead : ∀ s, exec .ellostRead s = execEllostRead s := fun _ => rfl
theorem exec_mellostRead : ∀ unit s, exec (.mellostRead unit) s = execMellostRead unit s := fun _ _ => rfl
theorem exec_lllostRead : ∀ s, exec .lllostRead s = execLllostRead s := fun _ => rfl
theorem exec_cecntRead : ∀ die s, exec (.cecntRead die) s = execCecntRead die s := fun _ _ => rfl
theorem exec_registerWrite : ∀ ma v s, exec (.registerWrite ma v) s = execRegisterWrite ma v s := fun _ _ _ => rfl
theorem exec_illegalFirstWord : ∀ w s, exec (.illegalFirstWord w) s = execIllegalFirstWord w s := fun _ _ => rfl
theorem exec_clusterCacheArrival : ∀ op acc s, exec (.clusterCacheArrival op acc) s = execClusterCacheArrival op acc s := fun _ _ _ => rfl
theorem exec_stallSample : ∀ cluster s, exec (.stallSample cluster) s = execStallSample cluster s := fun _ _ => rfl
theorem exec_peerAccessAnswer : ∀ ok data s, exec (.peerAccessAnswer ok data) s = execPeerAccessAnswer ok data s := fun _ _ _ => rfl
theorem exec_physicalWindowAccess : ∀ die off data s, exec (.physicalWindowAccess die off data) s = execPhysicalWindowAccess die off data s := fun _ _ _ _ => rfl
theorem exec_syncInterval : ∀ s, exec .syncInterval s = execSyncInterval s := fun _ => rfl
theorem exec_thermalHoldLeft : ∀ die temp s, exec (.thermalHoldLeft die temp) s = execThermalHoldLeft die temp s := fun _ _ _ => rfl
theorem exec_wavelengthRecalibration : ∀ group s, exec (.wavelengthRecalibration group) s = execWavelengthRecalibration group s := fun _ _ => rfl
theorem exec_tlockLapse : ∀ group s, exec (.tlockLapse group) s = execTlockLapse group s := fun _ _ => rfl

end Sys2Proof.Machine
end

