-- ==== Sys2Proof/Laws/State.lean ====
section
/-! SUPPORT. Every field of State after each of its updates: the tables' entries changed in place, and a management register
written. One lemma per field and update, so that no proof unfolds one. -/

namespace Sys2Proof.Machine

open Sys2Proof

variable (s : State) (k : Nat)

/-! ### modCore -/

section

variable (f : Core → Core)

@[simp] theorem modCore_agenda : (s.modCore k f).agenda = s.agenda := rfl
@[simp] theorem modCore_picked : (s.modCore k f).picked = s.picked := rfl
@[simp] theorem modCore_cur : (s.modCore k f).cur = s.cur := rfl
@[simp] theorem modCore_warps : (s.modCore k f).warps = s.warps := rfl
@[simp] theorem modCore_wgs : (s.modCore k f).wgs = s.wgs := rfl
@[simp] theorem modCore_grids : (s.modCore k f).grids = s.grids := rfl
@[simp] theorem modCore_ops : (s.modCore k f).ops = s.ops := rfl
@[simp] theorem modCore_stamp : (s.modCore k f).stamp = s.stamp := rfl
@[simp] theorem modCore_dies : (s.modCore k f).dies = s.dies := rfl
@[simp] theorem modCore_clusters : (s.modCore k f).clusters = s.clusters := rfl
@[simp] theorem modCore_cores : (s.modCore k f).cores = s.cores.modify k f := rfl
@[simp] theorem modCore_mem : (s.modCore k f).mem = s.mem := rfl
@[simp] theorem modCore_memPsn : (s.modCore k f).memPsn = s.memPsn := rfl
@[simp] theorem modCore_slices : (s.modCore k f).slices = s.slices := rfl
@[simp] theorem modCore_remap : (s.modCore k f).remap = s.remap := rfl
@[simp] theorem modCore_frameWant : (s.modCore k f).frameWant = s.frameWant := rfl
@[simp] theorem modCore_frameLogged : (s.modCore k f).frameLogged = s.frameLogged := rfl
@[simp] theorem modCore_atomQ : (s.modCore k f).atomQ = s.atomQ := rfl
@[simp] theorem modCore_msgs : (s.modCore k f).msgs = s.msgs := rfl
@[simp] theorem modCore_sends : (s.modCore k f).sends = s.sends := rfl
@[simp] theorem modCore_notices : (s.modCore k f).notices = s.notices := rfl
@[simp] theorem modCore_holds : (s.modCore k f).holds = s.holds := rfl
@[simp] theorem modCore_jobs : (s.modCore k f).jobs = s.jobs := rfl
@[simp] theorem modCore_nreds : (s.modCore k f).nreds = s.nreds := rfl
@[simp] theorem modCore_cands : (s.modCore k f).cands = s.cands := rfl
@[simp] theorem modCore_devBuf : (s.modCore k f).devBuf = s.devBuf := rfl
@[simp] theorem modCore_seqNo : (s.modCore k f).seqNo = s.seqNo := rfl
@[simp] theorem modCore_starts : (s.modCore k f).starts = s.starts := rfl
@[simp] theorem modCore_gangs : (s.modCore k f).gangs = s.gangs := rfl
@[simp] theorem modCore_now : (s.modCore k f).now = s.now := rfl
@[simp] theorem modCore_tb : (s.modCore k f).tb = s.tb := rfl
@[simp] theorem modCore_tbHold : (s.modCore k f).tbHold = s.tbHold := rfl
@[simp] theorem modCore_tbOk : (s.modCore k f).tbOk = s.tbOk := rfl
@[simp] theorem modCore_tbLast : (s.modCore k f).tbLast = s.tbLast := rfl
@[simp] theorem modCore_tbLost : (s.modCore k f).tbLost = s.tbLost := rfl
@[simp] theorem modCore_tbLatch : (s.modCore k f).tbLatch = s.tbLatch := rfl
@[simp] theorem modCore_mgmt : (s.modCore k f).mgmt = s.mgmt := rfl
@[simp] theorem modCore_stallLatch : (s.modCore k f).stallLatch = s.stallLatch := rfl
@[simp] theorem modCore_replies : (s.modCore k f).replies = s.replies := rfl
@[simp] theorem modCore_devReqs : (s.modCore k f).devReqs = s.devReqs := rfl
@[simp] theorem modCore_flitIn : (s.modCore k f).flitIn = s.flitIn := rfl
@[simp] theorem modCore_ptp : (s.modCore k f).ptp = s.ptp := rfl
@[simp] theorem modCore_slowQ : (s.modCore k f).slowQ = s.slowQ := rfl
@[simp] theorem modCore_outbox : (s.modCore k f).outbox = s.outbox := rfl
@[simp] theorem modCore_links : (s.modCore k f).links = s.links := rfl
@[simp] theorem modCore_groupUp : (s.modCore k f).groupUp = s.groupUp := rfl
@[simp] theorem modCore_optics : (s.modCore k f).optics = s.optics := rfl
@[simp] theorem modCore_crcFails : (s.modCore k f).crcFails = s.crcFails := rfl
@[simp] theorem modCore_recal : (s.modCore k f).recal = s.recal := rfl
@[simp] theorem modCore_lastFlit : (s.modCore k f).lastFlit = s.lastFlit := rfl
@[simp] theorem modCore_pxSince : (s.modCore k f).pxSince = s.pxSince := rfl
@[simp] theorem modCore_pxRead : (s.modCore k f).pxRead = s.pxRead := rfl
@[simp] theorem modCore_aperture : (s.modCore k f).aperture = s.aperture := rfl
@[simp] theorem modCore_hbm : (s.modCore k f).hbm = s.hbm := rfl
@[simp] theorem modCore_capsLink : (s.modCore k f).capsLink = s.capsLink := rfl
@[simp] theorem modCore_bootmask : (s.modCore k f).bootmask = s.bootmask := rfl
@[simp] theorem modCore_hostGroup : (s.modCore k f).hostGroup = s.hostGroup := rfl
@[simp] theorem modCore_svnMin : (s.modCore k f).svnMin = s.svnMin := rfl
@[simp] theorem modCore_retired : (s.modCore k f).retired = s.retired := rfl
@[simp] theorem modCore_flash : (s.modCore k f).flash = s.flash := rfl
@[simp] theorem modCore_slotRun : (s.modCore k f).slotRun = s.slotRun := rfl
@[simp] theorem modCore_bootAt : (s.modCore k f).bootAt = s.bootAt := rfl
@[simp] theorem modCore_attest : (s.modCore k f).attest = s.attest := rfl
@[simp] theorem modCore_measured : (s.modCore k f).measured = s.measured := rfl
@[simp] theorem modCore_powered : (s.modCore k f).powered = s.powered := rfl
@[simp] theorem modCore_hotSince : (s.modCore k f).hotSince = s.hotSince := rfl

end

/-! ### modCluster -/

section

variable (f : Cluster → Cluster)

@[simp] theorem modCluster_agenda : (s.modCluster k f).agenda = s.agenda := rfl
@[simp] theorem modCluster_picked : (s.modCluster k f).picked = s.picked := rfl
@[simp] theorem modCluster_cur : (s.modCluster k f).cur = s.cur := rfl
@[simp] theorem modCluster_warps : (s.modCluster k f).warps = s.warps := rfl
@[simp] theorem modCluster_wgs : (s.modCluster k f).wgs = s.wgs := rfl
@[simp] theorem modCluster_grids : (s.modCluster k f).grids = s.grids := rfl
@[simp] theorem modCluster_ops : (s.modCluster k f).ops = s.ops := rfl
@[simp] theorem modCluster_stamp : (s.modCluster k f).stamp = s.stamp := rfl
@[simp] theorem modCluster_dies : (s.modCluster k f).dies = s.dies := rfl
@[simp] theorem modCluster_clusters : (s.modCluster k f).clusters = s.clusters.modify k f := rfl
@[simp] theorem modCluster_cores : (s.modCluster k f).cores = s.cores := rfl
@[simp] theorem modCluster_mem : (s.modCluster k f).mem = s.mem := rfl
@[simp] theorem modCluster_memPsn : (s.modCluster k f).memPsn = s.memPsn := rfl
@[simp] theorem modCluster_slices : (s.modCluster k f).slices = s.slices := rfl
@[simp] theorem modCluster_remap : (s.modCluster k f).remap = s.remap := rfl
@[simp] theorem modCluster_frameWant : (s.modCluster k f).frameWant = s.frameWant := rfl
@[simp] theorem modCluster_frameLogged : (s.modCluster k f).frameLogged = s.frameLogged := rfl
@[simp] theorem modCluster_atomQ : (s.modCluster k f).atomQ = s.atomQ := rfl
@[simp] theorem modCluster_msgs : (s.modCluster k f).msgs = s.msgs := rfl
@[simp] theorem modCluster_sends : (s.modCluster k f).sends = s.sends := rfl
@[simp] theorem modCluster_notices : (s.modCluster k f).notices = s.notices := rfl
@[simp] theorem modCluster_holds : (s.modCluster k f).holds = s.holds := rfl
@[simp] theorem modCluster_jobs : (s.modCluster k f).jobs = s.jobs := rfl
@[simp] theorem modCluster_nreds : (s.modCluster k f).nreds = s.nreds := rfl
@[simp] theorem modCluster_cands : (s.modCluster k f).cands = s.cands := rfl
@[simp] theorem modCluster_devBuf : (s.modCluster k f).devBuf = s.devBuf := rfl
@[simp] theorem modCluster_seqNo : (s.modCluster k f).seqNo = s.seqNo := rfl
@[simp] theorem modCluster_starts : (s.modCluster k f).starts = s.starts := rfl
@[simp] theorem modCluster_gangs : (s.modCluster k f).gangs = s.gangs := rfl
@[simp] theorem modCluster_now : (s.modCluster k f).now = s.now := rfl
@[simp] theorem modCluster_tb : (s.modCluster k f).tb = s.tb := rfl
@[simp] theorem modCluster_tbHold : (s.modCluster k f).tbHold = s.tbHold := rfl
@[simp] theorem modCluster_tbOk : (s.modCluster k f).tbOk = s.tbOk := rfl
@[simp] theorem modCluster_tbLast : (s.modCluster k f).tbLast = s.tbLast := rfl
@[simp] theorem modCluster_tbLost : (s.modCluster k f).tbLost = s.tbLost := rfl
@[simp] theorem modCluster_tbLatch : (s.modCluster k f).tbLatch = s.tbLatch := rfl
@[simp] theorem modCluster_mgmt : (s.modCluster k f).mgmt = s.mgmt := rfl
@[simp] theorem modCluster_stallLatch : (s.modCluster k f).stallLatch = s.stallLatch := rfl
@[simp] theorem modCluster_replies : (s.modCluster k f).replies = s.replies := rfl
@[simp] theorem modCluster_devReqs : (s.modCluster k f).devReqs = s.devReqs := rfl
@[simp] theorem modCluster_flitIn : (s.modCluster k f).flitIn = s.flitIn := rfl
@[simp] theorem modCluster_ptp : (s.modCluster k f).ptp = s.ptp := rfl
@[simp] theorem modCluster_slowQ : (s.modCluster k f).slowQ = s.slowQ := rfl
@[simp] theorem modCluster_outbox : (s.modCluster k f).outbox = s.outbox := rfl
@[simp] theorem modCluster_links : (s.modCluster k f).links = s.links := rfl
@[simp] theorem modCluster_groupUp : (s.modCluster k f).groupUp = s.groupUp := rfl
@[simp] theorem modCluster_optics : (s.modCluster k f).optics = s.optics := rfl
@[simp] theorem modCluster_crcFails : (s.modCluster k f).crcFails = s.crcFails := rfl
@[simp] theorem modCluster_recal : (s.modCluster k f).recal = s.recal := rfl
@[simp] theorem modCluster_lastFlit : (s.modCluster k f).lastFlit = s.lastFlit := rfl
@[simp] theorem modCluster_pxSince : (s.modCluster k f).pxSince = s.pxSince := rfl
@[simp] theorem modCluster_pxRead : (s.modCluster k f).pxRead = s.pxRead := rfl
@[simp] theorem modCluster_aperture : (s.modCluster k f).aperture = s.aperture := rfl
@[simp] theorem modCluster_hbm : (s.modCluster k f).hbm = s.hbm := rfl
@[simp] theorem modCluster_capsLink : (s.modCluster k f).capsLink = s.capsLink := rfl
@[simp] theorem modCluster_bootmask : (s.modCluster k f).bootmask = s.bootmask := rfl
@[simp] theorem modCluster_hostGroup : (s.modCluster k f).hostGroup = s.hostGroup := rfl
@[simp] theorem modCluster_svnMin : (s.modCluster k f).svnMin = s.svnMin := rfl
@[simp] theorem modCluster_retired : (s.modCluster k f).retired = s.retired := rfl
@[simp] theorem modCluster_flash : (s.modCluster k f).flash = s.flash := rfl
@[simp] theorem modCluster_slotRun : (s.modCluster k f).slotRun = s.slotRun := rfl
@[simp] theorem modCluster_bootAt : (s.modCluster k f).bootAt = s.bootAt := rfl
@[simp] theorem modCluster_attest : (s.modCluster k f).attest = s.attest := rfl
@[simp] theorem modCluster_measured : (s.modCluster k f).measured = s.measured := rfl
@[simp] theorem modCluster_powered : (s.modCluster k f).powered = s.powered := rfl
@[simp] theorem modCluster_hotSince : (s.modCluster k f).hotSince = s.hotSince := rfl

end

/-! ### modDie -/

section

variable (f : Die → Die)

@[simp] theorem modDie_agenda : (s.modDie k f).agenda = s.agenda := rfl
@[simp] theorem modDie_picked : (s.modDie k f).picked = s.picked := rfl
@[simp] theorem modDie_cur : (s.modDie k f).cur = s.cur := rfl
@[simp] theorem modDie_warps : (s.modDie k f).warps = s.warps := rfl
@[simp] theorem modDie_wgs : (s.modDie k f).wgs = s.wgs := rfl
@[simp] theorem modDie_grids : (s.modDie k f).grids = s.grids := rfl
@[simp] theorem modDie_ops : (s.modDie k f).ops = s.ops := rfl
@[simp] theorem modDie_stamp : (s.modDie k f).stamp = s.stamp := rfl
@[simp] theorem modDie_dies : (s.modDie k f).dies = s.dies.modify k f := rfl
@[simp] theorem modDie_clusters : (s.modDie k f).clusters = s.clusters := rfl
@[simp] theorem modDie_cores : (s.modDie k f).cores = s.cores := rfl
@[simp] theorem modDie_mem : (s.modDie k f).mem = s.mem := rfl
@[simp] theorem modDie_memPsn : (s.modDie k f).memPsn = s.memPsn := rfl
@[simp] theorem modDie_slices : (s.modDie k f).slices = s.slices := rfl
@[simp] theorem modDie_remap : (s.modDie k f).remap = s.remap := rfl
@[simp] theorem modDie_frameWant : (s.modDie k f).frameWant = s.frameWant := rfl
@[simp] theorem modDie_frameLogged : (s.modDie k f).frameLogged = s.frameLogged := rfl
@[simp] theorem modDie_atomQ : (s.modDie k f).atomQ = s.atomQ := rfl
@[simp] theorem modDie_msgs : (s.modDie k f).msgs = s.msgs := rfl
@[simp] theorem modDie_sends : (s.modDie k f).sends = s.sends := rfl
@[simp] theorem modDie_notices : (s.modDie k f).notices = s.notices := rfl
@[simp] theorem modDie_holds : (s.modDie k f).holds = s.holds := rfl
@[simp] theorem modDie_jobs : (s.modDie k f).jobs = s.jobs := rfl
@[simp] theorem modDie_nreds : (s.modDie k f).nreds = s.nreds := rfl
@[simp] theorem modDie_cands : (s.modDie k f).cands = s.cands := rfl
@[simp] theorem modDie_devBuf : (s.modDie k f).devBuf = s.devBuf := rfl
@[simp] theorem modDie_seqNo : (s.modDie k f).seqNo = s.seqNo := rfl
@[simp] theorem modDie_starts : (s.modDie k f).starts = s.starts := rfl
@[simp] theorem modDie_gangs : (s.modDie k f).gangs = s.gangs := rfl
@[simp] theorem modDie_now : (s.modDie k f).now = s.now := rfl
@[simp] theorem modDie_tb : (s.modDie k f).tb = s.tb := rfl
@[simp] theorem modDie_tbHold : (s.modDie k f).tbHold = s.tbHold := rfl
@[simp] theorem modDie_tbOk : (s.modDie k f).tbOk = s.tbOk := rfl
@[simp] theorem modDie_tbLast : (s.modDie k f).tbLast = s.tbLast := rfl
@[simp] theorem modDie_tbLost : (s.modDie k f).tbLost = s.tbLost := rfl
@[simp] theorem modDie_tbLatch : (s.modDie k f).tbLatch = s.tbLatch := rfl
@[simp] theorem modDie_mgmt : (s.modDie k f).mgmt = s.mgmt := rfl
@[simp] theorem modDie_stallLatch : (s.modDie k f).stallLatch = s.stallLatch := rfl
@[simp] theorem modDie_replies : (s.modDie k f).replies = s.replies := rfl
@[simp] theorem modDie_devReqs : (s.modDie k f).devReqs = s.devReqs := rfl
@[simp] theorem modDie_flitIn : (s.modDie k f).flitIn = s.flitIn := rfl
@[simp] theorem modDie_ptp : (s.modDie k f).ptp = s.ptp := rfl
@[simp] theorem modDie_slowQ : (s.modDie k f).slowQ = s.slowQ := rfl
@[simp] theorem modDie_outbox : (s.modDie k f).outbox = s.outbox := rfl
@[simp] theorem modDie_links : (s.modDie k f).links = s.links := rfl
@[simp] theorem modDie_groupUp : (s.modDie k f).groupUp = s.groupUp := rfl
@[simp] theorem modDie_optics : (s.modDie k f).optics = s.optics := rfl
@[simp] theorem modDie_crcFails : (s.modDie k f).crcFails = s.crcFails := rfl
@[simp] theorem modDie_recal : (s.modDie k f).recal = s.recal := rfl
@[simp] theorem modDie_lastFlit : (s.modDie k f).lastFlit = s.lastFlit := rfl
@[simp] theorem modDie_pxSince : (s.modDie k f).pxSince = s.pxSince := rfl
@[simp] theorem modDie_pxRead : (s.modDie k f).pxRead = s.pxRead := rfl
@[simp] theorem modDie_aperture : (s.modDie k f).aperture = s.aperture := rfl
@[simp] theorem modDie_hbm : (s.modDie k f).hbm = s.hbm := rfl
@[simp] theorem modDie_capsLink : (s.modDie k f).capsLink = s.capsLink := rfl
@[simp] theorem modDie_bootmask : (s.modDie k f).bootmask = s.bootmask := rfl
@[simp] theorem modDie_hostGroup : (s.modDie k f).hostGroup = s.hostGroup := rfl
@[simp] theorem modDie_svnMin : (s.modDie k f).svnMin = s.svnMin := rfl
@[simp] theorem modDie_retired : (s.modDie k f).retired = s.retired := rfl
@[simp] theorem modDie_flash : (s.modDie k f).flash = s.flash := rfl
@[simp] theorem modDie_slotRun : (s.modDie k f).slotRun = s.slotRun := rfl
@[simp] theorem modDie_bootAt : (s.modDie k f).bootAt = s.bootAt := rfl
@[simp] theorem modDie_attest : (s.modDie k f).attest = s.attest := rfl
@[simp] theorem modDie_measured : (s.modDie k f).measured = s.measured := rfl
@[simp] theorem modDie_powered : (s.modDie k f).powered = s.powered := rfl
@[simp] theorem modDie_hotSince : (s.modDie k f).hotSince = s.hotSince := rfl

end

/-! ### modWarp -/

section

variable (f : Warp → Warp)

@[simp] theorem modWarp_agenda : (s.modWarp k f).agenda = s.agenda := rfl
@[simp] theorem modWarp_picked : (s.modWarp k f).picked = s.picked := rfl
@[simp] theorem modWarp_cur : (s.modWarp k f).cur = s.cur := rfl
@[simp] theorem modWarp_warps : (s.modWarp k f).warps = s.warps.modify k f := rfl
@[simp] theorem modWarp_wgs : (s.modWarp k f).wgs = s.wgs := rfl
@[simp] theorem modWarp_grids : (s.modWarp k f).grids = s.grids := rfl
@[simp] theorem modWarp_ops : (s.modWarp k f).ops = s.ops := rfl
@[simp] theorem modWarp_stamp : (s.modWarp k f).stamp = s.stamp := rfl
@[simp] theorem modWarp_dies : (s.modWarp k f).dies = s.dies := rfl
@[simp] theorem modWarp_clusters : (s.modWarp k f).clusters = s.clusters := rfl
@[simp] theorem modWarp_cores : (s.modWarp k f).cores = s.cores := rfl
@[simp] theorem modWarp_mem : (s.modWarp k f).mem = s.mem := rfl
@[simp] theorem modWarp_memPsn : (s.modWarp k f).memPsn = s.memPsn := rfl
@[simp] theorem modWarp_slices : (s.modWarp k f).slices = s.slices := rfl
@[simp] theorem modWarp_remap : (s.modWarp k f).remap = s.remap := rfl
@[simp] theorem modWarp_frameWant : (s.modWarp k f).frameWant = s.frameWant := rfl
@[simp] theorem modWarp_frameLogged : (s.modWarp k f).frameLogged = s.frameLogged := rfl
@[simp] theorem modWarp_atomQ : (s.modWarp k f).atomQ = s.atomQ := rfl
@[simp] theorem modWarp_msgs : (s.modWarp k f).msgs = s.msgs := rfl
@[simp] theorem modWarp_sends : (s.modWarp k f).sends = s.sends := rfl
@[simp] theorem modWarp_notices : (s.modWarp k f).notices = s.notices := rfl
@[simp] theorem modWarp_holds : (s.modWarp k f).holds = s.holds := rfl
@[simp] theorem modWarp_jobs : (s.modWarp k f).jobs = s.jobs := rfl
@[simp] theorem modWarp_nreds : (s.modWarp k f).nreds = s.nreds := rfl
@[simp] theorem modWarp_cands : (s.modWarp k f).cands = s.cands := rfl
@[simp] theorem modWarp_devBuf : (s.modWarp k f).devBuf = s.devBuf := rfl
@[simp] theorem modWarp_seqNo : (s.modWarp k f).seqNo = s.seqNo := rfl
@[simp] theorem modWarp_starts : (s.modWarp k f).starts = s.starts := rfl
@[simp] theorem modWarp_gangs : (s.modWarp k f).gangs = s.gangs := rfl
@[simp] theorem modWarp_now : (s.modWarp k f).now = s.now := rfl
@[simp] theorem modWarp_tb : (s.modWarp k f).tb = s.tb := rfl
@[simp] theorem modWarp_tbHold : (s.modWarp k f).tbHold = s.tbHold := rfl
@[simp] theorem modWarp_tbOk : (s.modWarp k f).tbOk = s.tbOk := rfl
@[simp] theorem modWarp_tbLast : (s.modWarp k f).tbLast = s.tbLast := rfl
@[simp] theorem modWarp_tbLost : (s.modWarp k f).tbLost = s.tbLost := rfl
@[simp] theorem modWarp_tbLatch : (s.modWarp k f).tbLatch = s.tbLatch := rfl
@[simp] theorem modWarp_mgmt : (s.modWarp k f).mgmt = s.mgmt := rfl
@[simp] theorem modWarp_stallLatch : (s.modWarp k f).stallLatch = s.stallLatch := rfl
@[simp] theorem modWarp_replies : (s.modWarp k f).replies = s.replies := rfl
@[simp] theorem modWarp_devReqs : (s.modWarp k f).devReqs = s.devReqs := rfl
@[simp] theorem modWarp_flitIn : (s.modWarp k f).flitIn = s.flitIn := rfl
@[simp] theorem modWarp_ptp : (s.modWarp k f).ptp = s.ptp := rfl
@[simp] theorem modWarp_slowQ : (s.modWarp k f).slowQ = s.slowQ := rfl
@[simp] theorem modWarp_outbox : (s.modWarp k f).outbox = s.outbox := rfl
@[simp] theorem modWarp_links : (s.modWarp k f).links = s.links := rfl
@[simp] theorem modWarp_groupUp : (s.modWarp k f).groupUp = s.groupUp := rfl
@[simp] theorem modWarp_optics : (s.modWarp k f).optics = s.optics := rfl
@[simp] theorem modWarp_crcFails : (s.modWarp k f).crcFails = s.crcFails := rfl
@[simp] theorem modWarp_recal : (s.modWarp k f).recal = s.recal := rfl
@[simp] theorem modWarp_lastFlit : (s.modWarp k f).lastFlit = s.lastFlit := rfl
@[simp] theorem modWarp_pxSince : (s.modWarp k f).pxSince = s.pxSince := rfl
@[simp] theorem modWarp_pxRead : (s.modWarp k f).pxRead = s.pxRead := rfl
@[simp] theorem modWarp_aperture : (s.modWarp k f).aperture = s.aperture := rfl
@[simp] theorem modWarp_hbm : (s.modWarp k f).hbm = s.hbm := rfl
@[simp] theorem modWarp_capsLink : (s.modWarp k f).capsLink = s.capsLink := rfl
@[simp] theorem modWarp_bootmask : (s.modWarp k f).bootmask = s.bootmask := rfl
@[simp] theorem modWarp_hostGroup : (s.modWarp k f).hostGroup = s.hostGroup := rfl
@[simp] theorem modWarp_svnMin : (s.modWarp k f).svnMin = s.svnMin := rfl
@[simp] theorem modWarp_retired : (s.modWarp k f).retired = s.retired := rfl
@[simp] theorem modWarp_flash : (s.modWarp k f).flash = s.flash := rfl
@[simp] theorem modWarp_slotRun : (s.modWarp k f).slotRun = s.slotRun := rfl
@[simp] theorem modWarp_bootAt : (s.modWarp k f).bootAt = s.bootAt := rfl
@[simp] theorem modWarp_attest : (s.modWarp k f).attest = s.attest := rfl
@[simp] theorem modWarp_measured : (s.modWarp k f).measured = s.measured := rfl
@[simp] theorem modWarp_powered : (s.modWarp k f).powered = s.powered := rfl
@[simp] theorem modWarp_hotSince : (s.modWarp k f).hotSince = s.hotSince := rfl

end

/-! ### modWg -/

section

variable (f : Workgroup → Workgroup)

@[simp] theorem modWg_agenda : (s.modWg k f).agenda = s.agenda := rfl
@[simp] theorem modWg_picked : (s.modWg k f).picked = s.picked := rfl
@[simp] theorem modWg_cur : (s.modWg k f).cur = s.cur := rfl
@[simp] theorem modWg_warps : (s.modWg k f).warps = s.warps := rfl
@[simp] theorem modWg_wgs : (s.modWg k f).wgs = s.wgs.modify k f := rfl
@[simp] theorem modWg_grids : (s.modWg k f).grids = s.grids := rfl
@[simp] theorem modWg_ops : (s.modWg k f).ops = s.ops := rfl
@[simp] theorem modWg_stamp : (s.modWg k f).stamp = s.stamp := rfl
@[simp] theorem modWg_dies : (s.modWg k f).dies = s.dies := rfl
@[simp] theorem modWg_clusters : (s.modWg k f).clusters = s.clusters := rfl
@[simp] theorem modWg_cores : (s.modWg k f).cores = s.cores := rfl
@[simp] theorem modWg_mem : (s.modWg k f).mem = s.mem := rfl
@[simp] theorem modWg_memPsn : (s.modWg k f).memPsn = s.memPsn := rfl
@[simp] theorem modWg_slices : (s.modWg k f).slices = s.slices := rfl
@[simp] theorem modWg_remap : (s.modWg k f).remap = s.remap := rfl
@[simp] theorem modWg_frameWant : (s.modWg k f).frameWant = s.frameWant := rfl
@[simp] theorem modWg_frameLogged : (s.modWg k f).frameLogged = s.frameLogged := rfl
@[simp] theorem modWg_atomQ : (s.modWg k f).atomQ = s.atomQ := rfl
@[simp] theorem modWg_msgs : (s.modWg k f).msgs = s.msgs := rfl
@[simp] theorem modWg_sends : (s.modWg k f).sends = s.sends := rfl
@[simp] theorem modWg_notices : (s.modWg k f).notices = s.notices := rfl
@[simp] theorem modWg_holds : (s.modWg k f).holds = s.holds := rfl
@[simp] theorem modWg_jobs : (s.modWg k f).jobs = s.jobs := rfl
@[simp] theorem modWg_nreds : (s.modWg k f).nreds = s.nreds := rfl
@[simp] theorem modWg_cands : (s.modWg k f).cands = s.cands := rfl
@[simp] theorem modWg_devBuf : (s.modWg k f).devBuf = s.devBuf := rfl
@[simp] theorem modWg_seqNo : (s.modWg k f).seqNo = s.seqNo := rfl
@[simp] theorem modWg_starts : (s.modWg k f).starts = s.starts := rfl
@[simp] theorem modWg_gangs : (s.modWg k f).gangs = s.gangs := rfl
@[simp] theorem modWg_now : (s.modWg k f).now = s.now := rfl
@[simp] theorem modWg_tb : (s.modWg k f).tb = s.tb := rfl
@[simp] theorem modWg_tbHold : (s.modWg k f).tbHold = s.tbHold := rfl
@[simp] theorem modWg_tbOk : (s.modWg k f).tbOk = s.tbOk := rfl
@[simp] theorem modWg_tbLast : (s.modWg k f).tbLast = s.tbLast := rfl
@[simp] theorem modWg_tbLost : (s.modWg k f).tbLost = s.tbLost := rfl
@[simp] theorem modWg_tbLatch : (s.modWg k f).tbLatch = s.tbLatch := rfl
@[simp] theorem modWg_mgmt : (s.modWg k f).mgmt = s.mgmt := rfl
@[simp] theorem modWg_stallLatch : (s.modWg k f).stallLatch = s.stallLatch := rfl
@[simp] theorem modWg_replies : (s.modWg k f).replies = s.replies := rfl
@[simp] theorem modWg_devReqs : (s.modWg k f).devReqs = s.devReqs := rfl
@[simp] theorem modWg_flitIn : (s.modWg k f).flitIn = s.flitIn := rfl
@[simp] theorem modWg_ptp : (s.modWg k f).ptp = s.ptp := rfl
@[simp] theorem modWg_slowQ : (s.modWg k f).slowQ = s.slowQ := rfl
@[simp] theorem modWg_outbox : (s.modWg k f).outbox = s.outbox := rfl
@[simp] theorem modWg_links : (s.modWg k f).links = s.links := rfl
@[simp] theorem modWg_groupUp : (s.modWg k f).groupUp = s.groupUp := rfl
@[simp] theorem modWg_optics : (s.modWg k f).optics = s.optics := rfl
@[simp] theorem modWg_crcFails : (s.modWg k f).crcFails = s.crcFails := rfl
@[simp] theorem modWg_recal : (s.modWg k f).recal = s.recal := rfl
@[simp] theorem modWg_lastFlit : (s.modWg k f).lastFlit = s.lastFlit := rfl
@[simp] theorem modWg_pxSince : (s.modWg k f).pxSince = s.pxSince := rfl
@[simp] theorem modWg_pxRead : (s.modWg k f).pxRead = s.pxRead := rfl
@[simp] theorem modWg_aperture : (s.modWg k f).aperture = s.aperture := rfl
@[simp] theorem modWg_hbm : (s.modWg k f).hbm = s.hbm := rfl
@[simp] theorem modWg_capsLink : (s.modWg k f).capsLink = s.capsLink := rfl
@[simp] theorem modWg_bootmask : (s.modWg k f).bootmask = s.bootmask := rfl
@[simp] theorem modWg_hostGroup : (s.modWg k f).hostGroup = s.hostGroup := rfl
@[simp] theorem modWg_svnMin : (s.modWg k f).svnMin = s.svnMin := rfl
@[simp] theorem modWg_retired : (s.modWg k f).retired = s.retired := rfl
@[simp] theorem modWg_flash : (s.modWg k f).flash = s.flash := rfl
@[simp] theorem modWg_slotRun : (s.modWg k f).slotRun = s.slotRun := rfl
@[simp] theorem modWg_bootAt : (s.modWg k f).bootAt = s.bootAt := rfl
@[simp] theorem modWg_attest : (s.modWg k f).attest = s.attest := rfl
@[simp] theorem modWg_measured : (s.modWg k f).measured = s.measured := rfl
@[simp] theorem modWg_powered : (s.modWg k f).powered = s.powered := rfl
@[simp] theorem modWg_hotSince : (s.modWg k f).hotSince = s.hotSince := rfl

end

/-! ### modGrid -/

section

variable (f : Grid → Grid)

@[simp] theorem modGrid_agenda : (s.modGrid k f).agenda = s.agenda := rfl
@[simp] theorem modGrid_picked : (s.modGrid k f).picked = s.picked := rfl
@[simp] theorem modGrid_cur : (s.modGrid k f).cur = s.cur := rfl
@[simp] theorem modGrid_warps : (s.modGrid k f).warps = s.warps := rfl
@[simp] theorem modGrid_wgs : (s.modGrid k f).wgs = s.wgs := rfl
@[simp] theorem modGrid_grids : (s.modGrid k f).grids = s.grids.modify k f := rfl
@[simp] theorem modGrid_ops : (s.modGrid k f).ops = s.ops := rfl
@[simp] theorem modGrid_stamp : (s.modGrid k f).stamp = s.stamp := rfl
@[simp] theorem modGrid_dies : (s.modGrid k f).dies = s.dies := rfl
@[simp] theorem modGrid_clusters : (s.modGrid k f).clusters = s.clusters := rfl
@[simp] theorem modGrid_cores : (s.modGrid k f).cores = s.cores := rfl
@[simp] theorem modGrid_mem : (s.modGrid k f).mem = s.mem := rfl
@[simp] theorem modGrid_memPsn : (s.modGrid k f).memPsn = s.memPsn := rfl
@[simp] theorem modGrid_slices : (s.modGrid k f).slices = s.slices := rfl
@[simp] theorem modGrid_remap : (s.modGrid k f).remap = s.remap := rfl
@[simp] theorem modGrid_frameWant : (s.modGrid k f).frameWant = s.frameWant := rfl
@[simp] theorem modGrid_frameLogged : (s.modGrid k f).frameLogged = s.frameLogged := rfl
@[simp] theorem modGrid_atomQ : (s.modGrid k f).atomQ = s.atomQ := rfl
@[simp] theorem modGrid_msgs : (s.modGrid k f).msgs = s.msgs := rfl
@[simp] theorem modGrid_sends : (s.modGrid k f).sends = s.sends := rfl
@[simp] theorem modGrid_notices : (s.modGrid k f).notices = s.notices := rfl
@[simp] theorem modGrid_holds : (s.modGrid k f).holds = s.holds := rfl
@[simp] theorem modGrid_jobs : (s.modGrid k f).jobs = s.jobs := rfl
@[simp] theorem modGrid_nreds : (s.modGrid k f).nreds = s.nreds := rfl
@[simp] theorem modGrid_cands : (s.modGrid k f).cands = s.cands := rfl
@[simp] theorem modGrid_devBuf : (s.modGrid k f).devBuf = s.devBuf := rfl
@[simp] theorem modGrid_seqNo : (s.modGrid k f).seqNo = s.seqNo := rfl
@[simp] theorem modGrid_starts : (s.modGrid k f).starts = s.starts := rfl
@[simp] theorem modGrid_gangs : (s.modGrid k f).gangs = s.gangs := rfl
@[simp] theorem modGrid_now : (s.modGrid k f).now = s.now := rfl
@[simp] theorem modGrid_tb : (s.modGrid k f).tb = s.tb := rfl
@[simp] theorem modGrid_tbHold : (s.modGrid k f).tbHold = s.tbHold := rfl
@[simp] theorem modGrid_tbOk : (s.modGrid k f).tbOk = s.tbOk := rfl
@[simp] theorem modGrid_tbLast : (s.modGrid k f).tbLast = s.tbLast := rfl
@[simp] theorem modGrid_tbLost : (s.modGrid k f).tbLost = s.tbLost := rfl
@[simp] theorem modGrid_tbLatch : (s.modGrid k f).tbLatch = s.tbLatch := rfl
@[simp] theorem modGrid_mgmt : (s.modGrid k f).mgmt = s.mgmt := rfl
@[simp] theorem modGrid_stallLatch : (s.modGrid k f).stallLatch = s.stallLatch := rfl
@[simp] theorem modGrid_replies : (s.modGrid k f).replies = s.replies := rfl
@[simp] theorem modGrid_devReqs : (s.modGrid k f).devReqs = s.devReqs := rfl
@[simp] theorem modGrid_flitIn : (s.modGrid k f).flitIn = s.flitIn := rfl
@[simp] theorem modGrid_ptp : (s.modGrid k f).ptp = s.ptp := rfl
@[simp] theorem modGrid_slowQ : (s.modGrid k f).slowQ = s.slowQ := rfl
@[simp] theorem modGrid_outbox : (s.modGrid k f).outbox = s.outbox := rfl
@[simp] theorem modGrid_links : (s.modGrid k f).links = s.links := rfl
@[simp] theorem modGrid_groupUp : (s.modGrid k f).groupUp = s.groupUp := rfl
@[simp] theorem modGrid_optics : (s.modGrid k f).optics = s.optics := rfl
@[simp] theorem modGrid_crcFails : (s.modGrid k f).crcFails = s.crcFails := rfl
@[simp] theorem modGrid_recal : (s.modGrid k f).recal = s.recal := rfl
@[simp] theorem modGrid_lastFlit : (s.modGrid k f).lastFlit = s.lastFlit := rfl
@[simp] theorem modGrid_pxSince : (s.modGrid k f).pxSince = s.pxSince := rfl
@[simp] theorem modGrid_pxRead : (s.modGrid k f).pxRead = s.pxRead := rfl
@[simp] theorem modGrid_aperture : (s.modGrid k f).aperture = s.aperture := rfl
@[simp] theorem modGrid_hbm : (s.modGrid k f).hbm = s.hbm := rfl
@[simp] theorem modGrid_capsLink : (s.modGrid k f).capsLink = s.capsLink := rfl
@[simp] theorem modGrid_bootmask : (s.modGrid k f).bootmask = s.bootmask := rfl
@[simp] theorem modGrid_hostGroup : (s.modGrid k f).hostGroup = s.hostGroup := rfl
@[simp] theorem modGrid_svnMin : (s.modGrid k f).svnMin = s.svnMin := rfl
@[simp] theorem modGrid_retired : (s.modGrid k f).retired = s.retired := rfl
@[simp] theorem modGrid_flash : (s.modGrid k f).flash = s.flash := rfl
@[simp] theorem modGrid_slotRun : (s.modGrid k f).slotRun = s.slotRun := rfl
@[simp] theorem modGrid_bootAt : (s.modGrid k f).bootAt = s.bootAt := rfl
@[simp] theorem modGrid_attest : (s.modGrid k f).attest = s.attest := rfl
@[simp] theorem modGrid_measured : (s.modGrid k f).measured = s.measured := rfl
@[simp] theorem modGrid_powered : (s.modGrid k f).powered = s.powered := rfl
@[simp] theorem modGrid_hotSince : (s.modGrid k f).hotSince = s.hotSince := rfl

end

/-! ### modOp -/

section

variable (f : Op → Op)

@[simp] theorem modOp_agenda : (s.modOp k f).agenda = s.agenda := rfl
@[simp] theorem modOp_picked : (s.modOp k f).picked = s.picked := rfl
@[simp] theorem modOp_cur : (s.modOp k f).cur = s.cur := rfl
@[simp] theorem modOp_warps : (s.modOp k f).warps = s.warps := rfl
@[simp] theorem modOp_wgs : (s.modOp k f).wgs = s.wgs := rfl
@[simp] theorem modOp_grids : (s.modOp k f).grids = s.grids := rfl
@[simp] theorem modOp_ops : (s.modOp k f).ops = s.ops.modify k f := rfl
@[simp] theorem modOp_stamp : (s.modOp k f).stamp = s.stamp := rfl
@[simp] theorem modOp_dies : (s.modOp k f).dies = s.dies := rfl
@[simp] theorem modOp_clusters : (s.modOp k f).clusters = s.clusters := rfl
@[simp] theorem modOp_cores : (s.modOp k f).cores = s.cores := rfl
@[simp] theorem modOp_mem : (s.modOp k f).mem = s.mem := rfl
@[simp] theorem modOp_memPsn : (s.modOp k f).memPsn = s.memPsn := rfl
@[simp] theorem modOp_slices : (s.modOp k f).slices = s.slices := rfl
@[simp] theorem modOp_remap : (s.modOp k f).remap = s.remap := rfl
@[simp] theorem modOp_frameWant : (s.modOp k f).frameWant = s.frameWant := rfl
@[simp] theorem modOp_frameLogged : (s.modOp k f).frameLogged = s.frameLogged := rfl
@[simp] theorem modOp_atomQ : (s.modOp k f).atomQ = s.atomQ := rfl
@[simp] theorem modOp_msgs : (s.modOp k f).msgs = s.msgs := rfl
@[simp] theorem modOp_sends : (s.modOp k f).sends = s.sends := rfl
@[simp] theorem modOp_notices : (s.modOp k f).notices = s.notices := rfl
@[simp] theorem modOp_holds : (s.modOp k f).holds = s.holds := rfl
@[simp] theorem modOp_jobs : (s.modOp k f).jobs = s.jobs := rfl
@[simp] theorem modOp_nreds : (s.modOp k f).nreds = s.nreds := rfl
@[simp] theorem modOp_cands : (s.modOp k f).cands = s.cands := rfl
@[simp] theorem modOp_devBuf : (s.modOp k f).devBuf = s.devBuf := rfl
@[simp] theorem modOp_seqNo : (s.modOp k f).seqNo = s.seqNo := rfl
@[simp] theorem modOp_starts : (s.modOp k f).starts = s.starts := rfl
@[simp] theorem modOp_gangs : (s.modOp k f).gangs = s.gangs := rfl
@[simp] theorem modOp_now : (s.modOp k f).now = s.now := rfl
@[simp] theorem modOp_tb : (s.modOp k f).tb = s.tb := rfl
@[simp] theorem modOp_tbHold : (s.modOp k f).tbHold = s.tbHold := rfl
@[simp] theorem modOp_tbOk : (s.modOp k f).tbOk = s.tbOk := rfl
@[simp] theorem modOp_tbLast : (s.modOp k f).tbLast = s.tbLast := rfl
@[simp] theorem modOp_tbLost : (s.modOp k f).tbLost = s.tbLost := rfl
@[simp] theorem modOp_tbLatch : (s.modOp k f).tbLatch = s.tbLatch := rfl
@[simp] theorem modOp_mgmt : (s.modOp k f).mgmt = s.mgmt := rfl
@[simp] theorem modOp_stallLatch : (s.modOp k f).stallLatch = s.stallLatch := rfl
@[simp] theorem modOp_replies : (s.modOp k f).replies = s.replies := rfl
@[simp] theorem modOp_devReqs : (s.modOp k f).devReqs = s.devReqs := rfl
@[simp] theorem modOp_flitIn : (s.modOp k f).flitIn = s.flitIn := rfl
@[simp] theorem modOp_ptp : (s.modOp k f).ptp = s.ptp := rfl
@[simp] theorem modOp_slowQ : (s.modOp k f).slowQ = s.slowQ := rfl
@[simp] theorem modOp_outbox : (s.modOp k f).outbox = s.outbox := rfl
@[simp] theorem modOp_links : (s.modOp k f).links = s.links := rfl
@[simp] theorem modOp_groupUp : (s.modOp k f).groupUp = s.groupUp := rfl
@[simp] theorem modOp_optics : (s.modOp k f).optics = s.optics := rfl
@[simp] theorem modOp_crcFails : (s.modOp k f).crcFails = s.crcFails := rfl
@[simp] theorem modOp_recal : (s.modOp k f).recal = s.recal := rfl
@[simp] theorem modOp_lastFlit : (s.modOp k f).lastFlit = s.lastFlit := rfl
@[simp] theorem modOp_pxSince : (s.modOp k f).pxSince = s.pxSince := rfl
@[simp] theorem modOp_pxRead : (s.modOp k f).pxRead = s.pxRead := rfl
@[simp] theorem modOp_aperture : (s.modOp k f).aperture = s.aperture := rfl
@[simp] theorem modOp_hbm : (s.modOp k f).hbm = s.hbm := rfl
@[simp] theorem modOp_capsLink : (s.modOp k f).capsLink = s.capsLink := rfl
@[simp] theorem modOp_bootmask : (s.modOp k f).bootmask = s.bootmask := rfl
@[simp] theorem modOp_hostGroup : (s.modOp k f).hostGroup = s.hostGroup := rfl
@[simp] theorem modOp_svnMin : (s.modOp k f).svnMin = s.svnMin := rfl
@[simp] theorem modOp_retired : (s.modOp k f).retired = s.retired := rfl
@[simp] theorem modOp_flash : (s.modOp k f).flash = s.flash := rfl
@[simp] theorem modOp_slotRun : (s.modOp k f).slotRun = s.slotRun := rfl
@[simp] theorem modOp_bootAt : (s.modOp k f).bootAt = s.bootAt := rfl
@[simp] theorem modOp_attest : (s.modOp k f).attest = s.attest := rfl
@[simp] theorem modOp_measured : (s.modOp k f).measured = s.measured := rfl
@[simp] theorem modOp_powered : (s.modOp k f).powered = s.powered := rfl
@[simp] theorem modOp_hotSince : (s.modOp k f).hotSince = s.hotSince := rfl

end

/-! ### modMsg -/

section

variable (f : Msg → Msg)

@[simp] theorem modMsg_agenda : (s.modMsg k f).agenda = s.agenda := rfl
@[simp] theorem modMsg_picked : (s.modMsg k f).picked = s.picked := rfl
@[simp] theorem modMsg_cur : (s.modMsg k f).cur = s.cur := rfl
@[simp] theorem modMsg_warps : (s.modMsg k f).warps = s.warps := rfl
@[simp] theorem modMsg_wgs : (s.modMsg k f).wgs = s.wgs := rfl
@[simp] theorem modMsg_grids : (s.modMsg k f).grids = s.grids := rfl
@[simp] theorem modMsg_ops : (s.modMsg k f).ops = s.ops := rfl
@[simp] theorem modMsg_stamp : (s.modMsg k f).stamp = s.stamp := rfl
@[simp] theorem modMsg_dies : (s.modMsg k f).dies = s.dies := rfl
@[simp] theorem modMsg_clusters : (s.modMsg k f).clusters = s.clusters := rfl
@[simp] theorem modMsg_cores : (s.modMsg k f).cores = s.cores := rfl
@[simp] theorem modMsg_mem : (s.modMsg k f).mem = s.mem := rfl
@[simp] theorem modMsg_memPsn : (s.modMsg k f).memPsn = s.memPsn := rfl
@[simp] theorem modMsg_slices : (s.modMsg k f).slices = s.slices := rfl
@[simp] theorem modMsg_remap : (s.modMsg k f).remap = s.remap := rfl
@[simp] theorem modMsg_frameWant : (s.modMsg k f).frameWant = s.frameWant := rfl
@[simp] theorem modMsg_frameLogged : (s.modMsg k f).frameLogged = s.frameLogged := rfl
@[simp] theorem modMsg_atomQ : (s.modMsg k f).atomQ = s.atomQ := rfl
@[simp] theorem modMsg_msgs : (s.modMsg k f).msgs = s.msgs.modify k f := rfl
@[simp] theorem modMsg_sends : (s.modMsg k f).sends = s.sends := rfl
@[simp] theorem modMsg_notices : (s.modMsg k f).notices = s.notices := rfl
@[simp] theorem modMsg_holds : (s.modMsg k f).holds = s.holds := rfl
@[simp] theorem modMsg_jobs : (s.modMsg k f).jobs = s.jobs := rfl
@[simp] theorem modMsg_nreds : (s.modMsg k f).nreds = s.nreds := rfl
@[simp] theorem modMsg_cands : (s.modMsg k f).cands = s.cands := rfl
@[simp] theorem modMsg_devBuf : (s.modMsg k f).devBuf = s.devBuf := rfl
@[simp] theorem modMsg_seqNo : (s.modMsg k f).seqNo = s.seqNo := rfl
@[simp] theorem modMsg_starts : (s.modMsg k f).starts = s.starts := rfl
@[simp] theorem modMsg_gangs : (s.modMsg k f).gangs = s.gangs := rfl
@[simp] theorem modMsg_now : (s.modMsg k f).now = s.now := rfl
@[simp] theorem modMsg_tb : (s.modMsg k f).tb = s.tb := rfl
@[simp] theorem modMsg_tbHold : (s.modMsg k f).tbHold = s.tbHold := rfl
@[simp] theorem modMsg_tbOk : (s.modMsg k f).tbOk = s.tbOk := rfl
@[simp] theorem modMsg_tbLast : (s.modMsg k f).tbLast = s.tbLast := rfl
@[simp] theorem modMsg_tbLost : (s.modMsg k f).tbLost = s.tbLost := rfl
@[simp] theorem modMsg_tbLatch : (s.modMsg k f).tbLatch = s.tbLatch := rfl
@[simp] theorem modMsg_mgmt : (s.modMsg k f).mgmt = s.mgmt := rfl
@[simp] theorem modMsg_stallLatch : (s.modMsg k f).stallLatch = s.stallLatch := rfl
@[simp] theorem modMsg_replies : (s.modMsg k f).replies = s.replies := rfl
@[simp] theorem modMsg_devReqs : (s.modMsg k f).devReqs = s.devReqs := rfl
@[simp] theorem modMsg_flitIn : (s.modMsg k f).flitIn = s.flitIn := rfl
@[simp] theorem modMsg_ptp : (s.modMsg k f).ptp = s.ptp := rfl
@[simp] theorem modMsg_slowQ : (s.modMsg k f).slowQ = s.slowQ := rfl
@[simp] theorem modMsg_outbox : (s.modMsg k f).outbox = s.outbox := rfl
@[simp] theorem modMsg_links : (s.modMsg k f).links = s.links := rfl
@[simp] theorem modMsg_groupUp : (s.modMsg k f).groupUp = s.groupUp := rfl
@[simp] theorem modMsg_optics : (s.modMsg k f).optics = s.optics := rfl
@[simp] theorem modMsg_crcFails : (s.modMsg k f).crcFails = s.crcFails := rfl
@[simp] theorem modMsg_recal : (s.modMsg k f).recal = s.recal := rfl
@[simp] theorem modMsg_lastFlit : (s.modMsg k f).lastFlit = s.lastFlit := rfl
@[simp] theorem modMsg_pxSince : (s.modMsg k f).pxSince = s.pxSince := rfl
@[simp] theorem modMsg_pxRead : (s.modMsg k f).pxRead = s.pxRead := rfl
@[simp] theorem modMsg_aperture : (s.modMsg k f).aperture = s.aperture := rfl
@[simp] theorem modMsg_hbm : (s.modMsg k f).hbm = s.hbm := rfl
@[simp] theorem modMsg_capsLink : (s.modMsg k f).capsLink = s.capsLink := rfl
@[simp] theorem modMsg_bootmask : (s.modMsg k f).bootmask = s.bootmask := rfl
@[simp] theorem modMsg_hostGroup : (s.modMsg k f).hostGroup = s.hostGroup := rfl
@[simp] theorem modMsg_svnMin : (s.modMsg k f).svnMin = s.svnMin := rfl
@[simp] theorem modMsg_retired : (s.modMsg k f).retired = s.retired := rfl
@[simp] theorem modMsg_flash : (s.modMsg k f).flash = s.flash := rfl
@[simp] theorem modMsg_slotRun : (s.modMsg k f).slotRun = s.slotRun := rfl
@[simp] theorem modMsg_bootAt : (s.modMsg k f).bootAt = s.bootAt := rfl
@[simp] theorem modMsg_attest : (s.modMsg k f).attest = s.attest := rfl
@[simp] theorem modMsg_measured : (s.modMsg k f).measured = s.measured := rfl
@[simp] theorem modMsg_powered : (s.modMsg k f).powered = s.powered := rfl
@[simp] theorem modMsg_hotSince : (s.modMsg k f).hotSince = s.hotSince := rfl

end

/-! ### setReg -/

section

variable (v : Word)

@[simp] theorem setReg_agenda : (s.setReg k v).agenda = s.agenda := rfl
@[simp] theorem setReg_picked : (s.setReg k v).picked = s.picked := rfl
@[simp] theorem setReg_cur : (s.setReg k v).cur = s.cur := rfl
@[simp] theorem setReg_warps : (s.setReg k v).warps = s.warps := rfl
@[simp] theorem setReg_wgs : (s.setReg k v).wgs = s.wgs := rfl
@[simp] theorem setReg_grids : (s.setReg k v).grids = s.grids := rfl
@[simp] theorem setReg_ops : (s.setReg k v).ops = s.ops := rfl
@[simp] theorem setReg_stamp : (s.setReg k v).stamp = s.stamp := rfl
@[simp] theorem setReg_dies : (s.setReg k v).dies = s.dies := rfl
@[simp] theorem setReg_clusters : (s.setReg k v).clusters = s.clusters := rfl
@[simp] theorem setReg_cores : (s.setReg k v).cores = s.cores := rfl
@[simp] theorem setReg_mem : (s.setReg k v).mem = s.mem := rfl
@[simp] theorem setReg_memPsn : (s.setReg k v).memPsn = s.memPsn := rfl
@[simp] theorem setReg_slices : (s.setReg k v).slices = s.slices := rfl
@[simp] theorem setReg_remap : (s.setReg k v).remap = s.remap := rfl
@[simp] theorem setReg_frameWant : (s.setReg k v).frameWant = s.frameWant := rfl
@[simp] theorem setReg_frameLogged : (s.setReg k v).frameLogged = s.frameLogged := rfl
@[simp] theorem setReg_atomQ : (s.setReg k v).atomQ = s.atomQ := rfl
@[simp] theorem setReg_msgs : (s.setReg k v).msgs = s.msgs := rfl
@[simp] theorem setReg_sends : (s.setReg k v).sends = s.sends := rfl
@[simp] theorem setReg_notices : (s.setReg k v).notices = s.notices := rfl
@[simp] theorem setReg_holds : (s.setReg k v).holds = s.holds := rfl
@[simp] theorem setReg_jobs : (s.setReg k v).jobs = s.jobs := rfl
@[simp] theorem setReg_nreds : (s.setReg k v).nreds = s.nreds := rfl
@[simp] theorem setReg_cands : (s.setReg k v).cands = s.cands := rfl
@[simp] theorem setReg_devBuf : (s.setReg k v).devBuf = s.devBuf := rfl
@[simp] theorem setReg_seqNo : (s.setReg k v).seqNo = s.seqNo := rfl
@[simp] theorem setReg_starts : (s.setReg k v).starts = s.starts := rfl
@[simp] theorem setReg_gangs : (s.setReg k v).gangs = s.gangs := rfl
@[simp] theorem setReg_now : (s.setReg k v).now = s.now := rfl
@[simp] theorem setReg_tb : (s.setReg k v).tb = s.tb := rfl
@[simp] theorem setReg_tbHold : (s.setReg k v).tbHold = s.tbHold := rfl
@[simp] theorem setReg_tbOk : (s.setReg k v).tbOk = s.tbOk := rfl
@[simp] theorem setReg_tbLast : (s.setReg k v).tbLast = s.tbLast := rfl
@[simp] theorem setReg_tbLost : (s.setReg k v).tbLost = s.tbLost := rfl
@[simp] theorem setReg_tbLatch : (s.setReg k v).tbLatch = s.tbLatch := rfl
@[simp] theorem setReg_mgmt : (s.setReg k v).mgmt = mapSet s.mgmt k v := rfl
@[simp] theorem setReg_stallLatch : (s.setReg k v).stallLatch = s.stallLatch := rfl
@[simp] theorem setReg_replies : (s.setReg k v).replies = s.replies := rfl
@[simp] theorem setReg_devReqs : (s.setReg k v).devReqs = s.devReqs := rfl
@[simp] theorem setReg_flitIn : (s.setReg k v).flitIn = s.flitIn := rfl
@[simp] theorem setReg_ptp : (s.setReg k v).ptp = s.ptp := rfl
@[simp] theorem setReg_slowQ : (s.setReg k v).slowQ = s.slowQ := rfl
@[simp] theorem setReg_outbox : (s.setReg k v).outbox = s.outbox := rfl
@[simp] theorem setReg_links : (s.setReg k v).links = s.links := rfl
@[simp] theorem setReg_groupUp : (s.setReg k v).groupUp = s.groupUp := rfl
@[simp] theorem setReg_optics : (s.setReg k v).optics = s.optics := rfl
@[simp] theorem setReg_crcFails : (s.setReg k v).crcFails = s.crcFails := rfl
@[simp] theorem setReg_recal : (s.setReg k v).recal = s.recal := rfl
@[simp] theorem setReg_lastFlit : (s.setReg k v).lastFlit = s.lastFlit := rfl
@[simp] theorem setReg_pxSince : (s.setReg k v).pxSince = s.pxSince := rfl
@[simp] theorem setReg_pxRead : (s.setReg k v).pxRead = s.pxRead := rfl
@[simp] theorem setReg_aperture : (s.setReg k v).aperture = s.aperture := rfl
@[simp] theorem setReg_hbm : (s.setReg k v).hbm = s.hbm := rfl
@[simp] theorem setReg_capsLink : (s.setReg k v).capsLink = s.capsLink := rfl
@[simp] theorem setReg_bootmask : (s.setReg k v).bootmask = s.bootmask := rfl
@[simp] theorem setReg_hostGroup : (s.setReg k v).hostGroup = s.hostGroup := rfl
@[simp] theorem setReg_svnMin : (s.setReg k v).svnMin = s.svnMin := rfl
@[simp] theorem setReg_retired : (s.setReg k v).retired = s.retired := rfl
@[simp] theorem setReg_flash : (s.setReg k v).flash = s.flash := rfl
@[simp] theorem setReg_slotRun : (s.setReg k v).slotRun = s.slotRun := rfl
@[simp] theorem setReg_bootAt : (s.setReg k v).bootAt = s.bootAt := rfl
@[simp] theorem setReg_attest : (s.setReg k v).attest = s.attest := rfl
@[simp] theorem setReg_measured : (s.setReg k v).measured = s.measured := rfl
@[simp] theorem setReg_powered : (s.setReg k v).powered = s.powered := rfl
@[simp] theorem setReg_hotSince : (s.setReg k v).hotSince = s.hotSince := rfl

end

end Sys2Proof.Machine
end

