-- ==== Sys2Proof/Laws/Issue.lean ====
section
/-! SUPPORT. The issue of an operation: the issuing context, what a consumption drains, and everything that entering an operation
with its snapshot and its produce key does (R123, R133, R134). -/

namespace Sys2Proof.Machine

open Sys2Proof

theorem issuer_all {s : State} {c : Ctx} (h : s.issuer = some c) :
    s.warps[s.cur]? = some c.w ∧ s.wgs[c.w.wg]? = some c.g ∧ s.grids[c.g.grid]? = some c.gr ∧ c.w.status = .running := by
  unfold State.issuer at h
  split at h
  · cases h
  · split at h
    · cases h
    · split at h
      · cases h
      · split at h
        · cases h; exact ⟨by assumption, by assumption, by assumption, by assumption⟩
        · cases h

theorem issuer_of_all {s : State} {c : Ctx} (h1 : s.warps[s.cur]? = some c.w) (h2 : s.wgs[c.w.wg]? = some c.g) (h3 : s.grids[c.g.grid]? = some c.gr)
    (h4 : c.w.status = .running) : s.issuer = some c := by
  simp [State.issuer, h1, h2, h3, h4]

theorem modify_some {α : Type} {l : List α} {i : Nat} {a : α} (h : l[i]? = some a) (f : α → α) : l.modify i f = l.set i (f a) := by
  apply List.ext_getElem?; intro j
  rw [List.getElem?_modify, List.getElem?_set]
  by_cases hj : i = j
  · subst hj; have := (List.getElem?_eq_some_iff.1 h).1; rw [h]; simp [this]
  · simp [hj]

/-! ### What a consumption drains (R123, R136) -/

/-- Draining an operation's lines changes operations alone. -/
theorem drainOp_frame (o : Op) (s : State) : s.drainOp o = { s with ops := (s.drainOp o).ops } := by
  unfold State.drainOp
  induction o.acc generalizing s with
  | nil => rfl
  | cons a as ih => rw [List.foldl_cons, ih]; split <;> rfl

@[simp] theorem length_drainOp (o : Op) (s : State) : (s.drainOp o).ops.length = s.ops.length := by
  unfold State.drainOp
  induction o.acc generalizing s with
  | nil => rfl
  | cons a as ih => rw [List.foldl_cons, ih]; split <;> simp [State.drainLine]

@[simp] theorem length_drainMembers (ms : List Member) : ∀ s : State, (s.drainMembers ms).ops.length = s.ops.length := by
  unfold State.drainMembers
  induction ms with
  | nil => intro s; rfl
  | cons m ms ih => intro s; rw [List.foldl_cons, ih]; split <;> simp

/-- Draining changes operations alone. -/
theorem drainMembers_frame (ms : List Member) : ∀ s : State, s.drainMembers ms = { s with ops := (s.drainMembers ms).ops } := by
  unfold State.drainMembers
  induction ms with
  | nil => intro s; rfl
  | cons m ms ih =>
    intro s; rw [List.foldl_cons, ih]
    split
    · rw [drainOp_frame]
    · rfl

@[simp] theorem length_consumed (s : State) (k : Nat) (sc : Scope) (ms : List Member) : (s.consumed k sc ms).ops.length = s.ops.length := by
  unfold State.consumed; simp only []; split <;> simp [State.dropRemote, State.drainCore]

/-- A consumption changes operations, and the caches of cores and clusters, and nothing else. -/
theorem consumed_frame (s : State) (k : Nat) (sc : Scope) (ms : List Member) :
    s.consumed k sc ms = { s with ops := (s.consumed k sc ms).ops, cores := (s.consumed k sc ms).cores, clusters := (s.consumed k sc ms).clusters } := by
  unfold State.consumed; simp only []; split
  · simp only [State.dropRemote, State.drainCore]; rw [drainMembers_frame]
  · rw [drainMembers_frame]

/-! ### Keys -/

theorem length_eraseDups_le {α : Type} [BEq α] : ∀ (n : Nat) (l : List α), l.length ≤ n → l.eraseDups.length ≤ l.length := by
  intro n
  induction n with
  | zero => intro l h; rw [List.length_eq_zero_iff.1 (Nat.le_zero.1 h)]; simp
  | succ n ih =>
    intro l h
    cases l with
    | nil => simp
    | cons a as =>
      rw [List.eraseDups_cons]
      have h1 := List.length_filter_le (fun b => !b == a) as
      have := ih (as.filter fun b => !b == a) (by simp only [List.length_cons] at h; omega)
      simp only [List.length_cons]; omega

theorem setCount_le (ms : List Member) : setCount ms ≤ ms.length := by
  simpa [setCount] using length_eraseDups_le _ (ms.map fun m => (m.op, m.chip)) le_rfl

/-- Producing into a key that a producing instruction does not wait for: k15, or a key that is not CLOSED and holds fewer than
4,095 operations (R133, R140). -/
theorem produceWait_eq_none {w : Warp} {k : Nat} (h : k = 15 ∨ ((w.keys.getD k {}).st ≠ .closed ∧ (w.keys.getD k {}).set.length < 4095)) :
    w.produceWait k = none := by
  unfold Warp.produceWait
  by_cases hk : k = 15
  · simp [hk]
  · obtain h | ⟨h1, h2⟩ := h
    · exact absurd h hk
    · rw [if_neg hk]; simp only []; rw [if_neg h1, if_neg (by have := setCount_le (w.keys.getD k {}).set; omega)]

theorem produce_noKey (w : Warp) (i : Nat) : w.produce 15 i = w := rfl

/-- An operation joins its produce key, which becomes OPEN; nothing else of the warp changes (R133). -/
theorem produce_key (w : Warp) {k : Nat} (hk : k ≠ 15) (i : Nat) :
    w.produce k i = { w with keys := w.keys.set k { st := .opened, set := joinSets (w.keys.getD k {}).set [{ op := i }] } } := by
  rw [Warp.produce, if_neg hk]

theorem mem_dropMember (c : Option Nat) (i : Nat) (ms : List Member) (m : Member) : m ∈ dropMember c i ms ↔ m ∈ ms ∧ ¬(m.op = i ∧ m.chip = c) := by
  simp only [dropMember, List.mem_filter, Bool.not_eq_true', Bool.and_eq_false_iff, beq_eq_false_iff_ne, ne_eq, not_and_or]

theorem mem_joinSets (a b : List Member) (m : Member) : m ∈ joinSets a b ↔ m ∈ a ∨ m ∈ b := by
  simp only [joinSets, List.mem_append, List.mem_filter, List.contains_eq_mem, Bool.not_eq_true', decide_eq_false_iff_not]
  by_cases h : m ∈ a <;> simp [h]

/-! ### An operation enters -/

/-- The issue of an operation: it stands at the end of `ops` with the consume key's set as its snapshot, the issuing warp's produce
key holds it, and the rest of the machine keeps its value but for what the consumption drains and drops. -/
theorem issueOp_spec (s : State) (wi : Nat) (w : Warp) (core : Nat) (kind : OpKind) (sc : Scope) (prod cons : Nat) (acc : List Access) :
    let t := (s.issueOp wi w core kind sc prod cons acc).1
    (s.issueOp wi w core kind sc prod cons acc).2 = s.ops.length ∧ t.ops.length = s.ops.length + 1 ∧
    t.ops[s.ops.length]? = some { kind := kind, warp := wi, wg := w.wg, core := core, pc := w.pc, sc := sc, snap := w.keySet cons, acc := acc } ∧
    t.warps = s.warps.modify wi (fun x => x.produce prod s.ops.length) ∧
    t = { s with ops := t.ops, warps := t.warps, cores := t.cores, clusters := t.clusters } ∧
    (cons = 15 → t.ops.take s.ops.length = s.ops ∧ t.cores = s.cores ∧ t.clusters = s.clusters) := by
  have hl := length_consumed s core sc (w.keySet cons)
  have hf := consumed_frame s core sc (w.keySet cons)
  have hw : (s.consumed core sc (w.keySet cons)).warps = s.warps := by rw [hf]
  by_cases hc : cons = 15
  · simp [State.issueOp, State.modWarp, hc]
  · simp only [State.issueOp, State.modWarp, hc, if_false, hw]
    refine ⟨trivial, by simp [hl], ?_, trivial, ?_, fun h => h.elim⟩
    · rw [List.getElem?_append_right (by omega), hl, Nat.sub_self]; simp
    · rw [hf]

end Sys2Proof.Machine
end

