-- ==== Sys2Proof/Laws/Log.lean ====
section
/-! SUPPORT. Management registers and the three logs: a read after a write, and everything that entering a record does. -/

namespace Sys2Proof.Machine

open Sys2Proof

theorem mapGet_mapSet (m : List (Nat × Word)) (k : Nat) (v : Word) (j : Nat) (d : Word) :
    mapGet (mapSet m k v) j d = if k = j then v else mapGet m j d := by
  induction m with
  | nil => simp [mapSet, mapGet]
  | cons a m ih =>
    obtain ⟨a, u⟩ := a
    unfold mapSet; split
    · simp [mapGet]
    · split
      · subst_vars; simp only [mapGet]; split <;> simp_all
      · simp only [mapGet, ih]; split <;> simp_all

theorem reg_setReg (s : State) (k : Nat) (v : Word) (j : Nat) : (s.setReg k v).reg j = if k = j then v else s.reg j := mapGet_mapSet ..

/-- A counter that stops at its maximum. -/
theorem satInc_eq (w : Word) : satInc w = BitVec.ofNat 32 (min (2 ^ 32 - 1) (w.toNat + 1)) := by
  unfold satInc; split
  · apply BitVec.eq_of_toNat_eq; simp; omega
  · apply BitVec.eq_of_toNat_eq; have := w.isLt; simp; omega

/-- The words of a record, written one after the other from register b + 4 i: only `mgmt` changes, each word is at its place, and
every other register keeps its value. -/
theorem foldl_setReg_words (b : Nat) (ws : List Word) : ∀ (s : State) (i : Nat), ∃ m,
    (ws.zipIdx i).foldl (fun (s : State) p => s.setReg (b + 4 * p.2) p.1) s = { s with mgmt := m } ∧
    (∀ ma, (∀ k, k < ws.length → ma ≠ b + 4 * (i + k)) → ({ s with mgmt := m } : State).reg ma = s.reg ma) ∧
    ∀ k v, ws[k]? = some v → ({ s with mgmt := m } : State).reg (b + 4 * (i + k)) = v := by
  induction ws with
  | nil => intro s i; exact ⟨s.mgmt, rfl, fun _ _ => rfl, by simp⟩
  | cons w ws ih =>
    intro s i
    obtain ⟨m, h1, h2, h3⟩ := ih (s.setReg (b + 4 * i) w) (i + 1)
    refine ⟨m, ?_, ?_, ?_⟩
    · rw [List.zipIdx_cons, List.foldl_cons, h1]; rfl
    · intro ma h
      have rest := h2 ma fun k hk => by
        have := h (k + 1) (by simp; omega)
        rw [show i + 1 + k = i + (k + 1) by omega]; exact this
      have first := h 0 (by simp)
      have e : ({ s with mgmt := m } : State).reg ma = ({ s.setReg (b + 4 * i) w with mgmt := m } : State).reg ma := rfl
      rw [e, rest, reg_setReg, if_neg]; intro q; exact first (by omega)
    · intro k v hk
      cases k with
      | zero =>
        simp at hk; subst hk
        have rest := h2 (b + 4 * i) fun k hk q => by omega
        have e : ({ s with mgmt := m } : State).reg (b + 4 * i) = ({ s.setReg (b + 4 * i) w with mgmt := m } : State).reg (b + 4 * i) := rfl
        rw [Nat.add_zero, e, rest, reg_setReg, if_pos rfl]
      | succ k =>
        have := h3 k v (by simpa using hk)
        rw [show i + (k + 1) = i + 1 + k by omega]; exact this

/-- Entering a record of at most eight words in a log whose WP lies outside its records (R384, R398, R414). With fewer than 64
records held, the words stand at record WP mod 64 and WP is one more; else LOST counts. Nothing else changes. -/
theorem logTo_spec (s : State) {wp rp lost base : Nat} {ws : List Word} (hn : ws.length ≤ 8) (hw : wp < base ∨ base + 2048 ≤ wp) :
    ∃ m, s.logTo wp rp lost base ws = { s with mgmt := m } ∧
      ((s.reg wp - s.reg rp).toNat < 64 →
        ({ s with mgmt := m } : State).reg wp = s.reg wp + 1 ∧
        (∀ k v, ws[k]? = some v → ({ s with mgmt := m } : State).reg (base + 32 * ((s.reg wp).toNat % 64) + 4 * k) = v) ∧
        ∀ ma, ma ≠ wp → ma < base + 32 * ((s.reg wp).toNat % 64) ∨ base + 32 * ((s.reg wp).toNat % 64) + 32 ≤ ma →
          ({ s with mgmt := m } : State).reg ma = s.reg ma) ∧
      (64 ≤ (s.reg wp - s.reg rp).toNat →
        ({ s with mgmt := m } : State).reg lost = satInc (s.reg lost) ∧ ∀ ma, ma ≠ lost → ({ s with mgmt := m } : State).reg ma = s.reg ma) := by
  unfold State.logTo
  simp only []
  split
  · rename_i h
    have hlt := Nat.mod_lt (s.reg wp).toNat (show 0 < 64 by omega)
    obtain ⟨m, h1, h2, h3⟩ := foldl_setReg_words (base + 32 * ((s.reg wp).toNat % 64)) ws s 0
    have e : ∀ ma, ({ s with mgmt := mapSet m wp (s.reg wp + 1) } : State).reg ma =
        if wp = ma then s.reg wp + 1 else ({ s with mgmt := m } : State).reg ma := fun ma => by rw [← reg_setReg]; rfl
    refine ⟨mapSet m wp (s.reg wp + 1), by rw [h1]; rfl, fun _ => ⟨by rw [e, if_pos rfl], ?_, ?_⟩, fun q => absurd h (by omega)⟩
    · intro k v hk
      have hk8 : k < ws.length := (List.getElem?_eq_some_iff.1 hk).1
      have := h3 k v hk
      rw [Nat.zero_add] at this
      rw [e, if_neg (by omega), this]
    · intro ma hma hr
      rw [e, if_neg (Ne.symm hma), h2 ma fun k hk => by omega]
  · rename_i h
    refine ⟨_, rfl, fun q => absurd q h, fun _ => ?_⟩
    have e : ∀ ma, (s.setReg lost (satInc (s.reg lost))).reg ma = if lost = ma then satInc (s.reg lost) else s.reg ma := fun ma => reg_setReg ..
    exact ⟨by have := e lost; rwa [if_pos rfl] at this, fun ma hma => by have := e ma; rwa [if_neg (Ne.symm hma)] at this⟩

/-- A record entered in the package error log changes management registers alone. -/
theorem logErr_frame (s : State) (ws : List Word) : s.logErr ws = { s with mgmt := (s.logErr ws).mgmt } := by
  unfold State.logErr State.logTo
  simp only []
  split
  · obtain ⟨m, h, _⟩ := foldl_setReg_words (0x4000 + 32 * ((s.reg 0x3000).toNat % 64)) ws s 0
    rw [h]; rfl
  · rfl

end Sys2Proof.Machine
end

