-- ==== Sys2Proof/Laws/Memory.lean ====
section
/-! SUPPORT. The laws of sparse bytes: every operation keeps the canonical form, and what a read gives after a write. -/

namespace Sys2Proof.Machine

open Sys2Proof

/-! ### The canonical form -/

theorem Memory.wfFrom_mono {m : Bytes} {b c : Nat} (h : Memory.wfFrom b m = true) (hc : c ≤ b) : Memory.wfFrom c m = true := by
  cases m with
  | nil => rfl
  | cons e m =>
    simp only [Memory.wfFrom, Bool.and_eq_true, decide_eq_true_eq] at h ⊢
    exact ⟨⟨by omega, h.1.2⟩, h.2⟩

theorem Memory.wfFrom_cons {b a : Nat} {v : Byte} {m : Bytes} :
    Memory.wfFrom b ((a, v) :: m) = true ↔ b ≤ a ∧ v ≠ 0 ∧ Memory.wfFrom (a + 1) m = true := by
  rw [Memory.wfFrom, Bool.and_eq_true, Bool.and_eq_true, decide_eq_true_eq, bne_iff_ne, and_assoc]

theorem Memory.wfFrom_set {m : Bytes} (x : Nat) (v : Byte) : ∀ {b : Nat}, Memory.wfFrom b m = true → b ≤ x → Memory.wfFrom b (Memory.set m x v) = true := by
  induction m with
  | nil =>
    intro b _ hx
    unfold Memory.set; split
    · rfl
    · exact Memory.wfFrom_cons.2 ⟨hx, ‹_›, rfl⟩
  | cons e m ih =>
    intro b h hx
    obtain ⟨a, u⟩ := e
    have h' := Memory.wfFrom_cons.1 h
    unfold Memory.set
    split
    · split
      · exact h
      · exact Memory.wfFrom_cons.2 ⟨hx, ‹_›, Memory.wfFrom_cons.2 ⟨by omega, h'.2⟩⟩
    · split
      · split
        · exact Memory.wfFrom_mono h'.2.2 (by omega)
        · exact Memory.wfFrom_cons.2 ⟨hx, ‹_›, by simpa [‹x = a›] using h'.2.2⟩
      · exact Memory.wfFrom_cons.2 ⟨h'.1, h'.2.1, ih h'.2.2 (by omega)⟩

theorem Memory.wf_nil : Memory.wf [] = true := rfl

theorem Memory.wf_set {m : Bytes} (h : Memory.wf m = true) (x : Nat) (v : Byte) : Memory.wf (Memory.set m x v) = true :=
  Memory.wfFrom_set x v h (Nat.zero_le x)

theorem Memory.wf_setN (n : Nat) : ∀ {m : Bytes} (a v : Nat), Memory.wf m = true → Memory.wf (Memory.setN m a n v) = true := by
  induction n with
  | zero => intro m a v h; exact h
  | succ n ih => intro m a v h; exact ih _ _ (Memory.wf_set h _ _)

theorem Memory.wf_setMasked (n : Nat) : ∀ {m : Bytes} (a be v : Nat), Memory.wf m = true → Memory.wf (Memory.setMasked m a n be v) = true := by
  induction n with
  | zero => intro m a be v h; exact h
  | succ n ih =>
    intro m a be v h
    refine ih _ _ _ ?_
    split
    · exact Memory.wf_set h _ _
    · exact h

theorem Memory.wf_setList (l : List Byte) : ∀ {m : Bytes} (a : Nat), Memory.wf m = true → Memory.wf (Memory.setList m a l) = true := by
  induction l with
  | nil => intro m a h; exact h
  | cons b l ih => intro m a h; exact ih _ (Memory.wf_set h _ _)

theorem Memory.wfFrom_filter (p : Nat × Byte → Bool) : ∀ {m : Bytes} {b : Nat}, Memory.wfFrom b m = true → Memory.wfFrom b (m.filter p) = true := by
  intro m
  induction m with
  | nil => intro b _; rfl
  | cons e m ih =>
    intro b h
    obtain ⟨a, u⟩ := e
    simp only [Memory.wfFrom, Bool.and_eq_true, decide_eq_true_eq] at h
    rw [List.filter_cons]
    split
    · simp only [Memory.wfFrom, Bool.and_eq_true, decide_eq_true_eq]
      exact ⟨h.1, ih h.2⟩
    · exact Memory.wfFrom_mono (ih h.2) (by omega)

theorem Memory.wf_clear {m : Bytes} (h : Memory.wf m = true) (a n : Nat) : Memory.wf (Memory.clear m a n) = true := Memory.wfFrom_filter _ h

theorem Memory.wfFrom_sub (a : Nat) : ∀ {m : Bytes} {b : Nat}, Memory.wfFrom b m = true → a ≤ b →
    Memory.wfFrom (b - a) (m.map fun c => (c.1 - a, c.2)) = true := by
  intro m
  induction m with
  | nil => intro b _ _; rfl
  | cons e m ih =>
    intro b h hb
    obtain ⟨x, u⟩ := e
    simp only [Memory.wfFrom, List.map_cons, Bool.and_eq_true, decide_eq_true_eq] at h ⊢
    exact ⟨⟨by omega, h.1.2⟩, by have := ih h.2 (show a ≤ x + 1 by omega); rwa [show x + 1 - a = x - a + 1 by omega] at this⟩

theorem Memory.wfFrom_above {m : Bytes} (a : Nat) (p : Nat × Byte → Bool) : ∀ {b : Nat}, Memory.wfFrom b m = true →
    Memory.wfFrom a (m.filter fun c => decide (a ≤ c.1) && p c) = true := by
  induction m with
  | nil => intro b _; rfl
  | cons e m ih =>
    intro b h
    obtain ⟨x, u⟩ := e
    simp only [Memory.wfFrom, Bool.and_eq_true, decide_eq_true_eq] at h
    rw [List.filter_cons]
    split
    · rename_i hp
      simp only [Bool.and_eq_true, decide_eq_true_eq] at hp
      simp only [Memory.wfFrom, Bool.and_eq_true, decide_eq_true_eq]
      exact ⟨⟨hp.1, h.1.2⟩, Memory.wfFrom_filter _ h.2⟩
    · exact ih h.2

theorem Memory.wf_slice {m : Bytes} (h : Memory.wf m = true) (a n : Nat) : Memory.wf (Memory.slice m a n) = true := by
  have := Memory.wfFrom_sub a (Memory.wfFrom_above a (fun c => decide (c.1 < a + n)) h) le_rfl
  rwa [Nat.sub_self] at this

theorem Memory.wf_paste {m : Bytes} (h : Memory.wf m = true) (a n : Nat) (b : Bytes) : Memory.wf (Memory.paste m a n b) = true := by
  unfold Memory.paste
  generalize hm : Memory.clear m a n = m'
  have h' : Memory.wf m' = true := hm ▸ Memory.wf_clear h a n
  clear hm
  induction b generalizing m' with
  | nil => exact h'
  | cons c b ih =>
    rw [List.foldl_cons]
    apply ih
    split
    · exact Memory.wf_set h' _ _
    · exact h'

/-! ### Reading after writing -/

theorem Memory.get_of_lt {m : Bytes} : ∀ {b x : Nat}, Memory.wfFrom b m = true → x < b → Memory.get m x = 0 := by
  induction m with
  | nil => intro b x _ _; rfl
  | cons e m ih =>
    intro b x h hx
    obtain ⟨a, u⟩ := e
    simp only [Memory.wfFrom, Bool.and_eq_true, decide_eq_true_eq] at h
    rw [Memory.get, if_neg (by omega), ih h.2 (by omega)]

theorem Memory.get_cons (a : Nat) (u : Byte) (m : Bytes) (y : Nat) : Memory.get ((a, u) :: m) y = if a = y then u else Memory.get m y := rfl

theorem Memory.get_set {m : Bytes} (x : Nat) (v : Byte) (y : Nat) : ∀ {b : Nat}, Memory.wfFrom b m = true →
    Memory.get (Memory.set m x v) y = if y = x then v else Memory.get m y := by
  induction m with
  | nil =>
    intro b _
    unfold Memory.set
    split
    · subst_vars; split <;> rfl
    · rw [Memory.get_cons]; simp only [eq_comm]
  | cons e m ih =>
    intro b h
    obtain ⟨a, u⟩ := e
    have h' := Memory.wfFrom_cons.1 h
    have below : y < a + 1 → Memory.get m y = 0 := fun q => Memory.get_of_lt h'.2.2 q
    unfold Memory.set
    split
    · split <;> by_cases hy : y = x
      · rw [if_pos hy, Memory.get_cons, if_neg (by omega), below (by omega)]; exact Eq.symm ‹_›
      · rw [if_neg hy]
      · rw [if_pos hy, Memory.get_cons, if_pos hy.symm]
      · rw [if_neg hy, Memory.get_cons, if_neg (Ne.symm hy)]
    · split
      · rename_i hx
        split <;> by_cases hy : y = x
        · rw [if_pos hy, below (by omega)]; exact Eq.symm ‹_›
        · rw [if_neg hy, Memory.get_cons, if_neg (by omega)]
        · rw [if_pos hy, Memory.get_cons, if_pos hy.symm]
        · rw [if_neg hy, Memory.get_cons, Memory.get_cons, if_neg (by omega), if_neg (by omega)]
      · rw [Memory.get_cons, ih h'.2.2, Memory.get_cons]
        by_cases hy : y = x
        · rw [if_pos hy, if_pos hy, if_neg (by omega)]
        · rw [if_neg hy, if_neg hy]

theorem Memory.get_setN (n : Nat) : ∀ {m : Bytes} (a v y : Nat), Memory.wf m = true →
    Memory.get (Memory.setN m a n v) y = if a ≤ y ∧ y < a + n then BitVec.ofNat 8 (v / 256 ^ (y - a)) else Memory.get m y := by
  induction n with
  | zero => intro m a v y _; rw [Memory.setN, if_neg (by omega)]
  | succ n ih =>
    intro m a v y h
    rw [Memory.setN, ih _ _ _ (Memory.wf_set h _ _), Memory.get_set _ _ _ h]
    by_cases hy : y = a
    · subst hy; rw [if_neg (by omega), if_pos rfl, if_pos (by omega)]; simp
    · rw [if_neg hy]
      by_cases hr : a + 1 ≤ y ∧ y < a + 1 + n
      · rw [if_pos hr, if_pos (by omega), Nat.div_div_eq_div_mul, ← Nat.pow_succ', show (y - (a + 1)).succ = y - a by omega]
      · rw [if_neg hr, if_neg (by omega)]

theorem Memory.get_setMasked (n : Nat) : ∀ {m : Bytes} (a be v y : Nat), Memory.wf m = true →
    Memory.get (Memory.setMasked m a n be v) y =
      if a ≤ y ∧ y < a + n ∧ be / 2 ^ (y - a) % 2 = 1 then BitVec.ofNat 8 (v / 256 ^ (y - a)) else Memory.get m y := by
  induction n with
  | zero => intro m a be v y _; rw [Memory.setMasked, if_neg (by omega)]
  | succ n ih =>
    intro m a be v y h
    have hw : Memory.wf (if be % 2 = 1 then Memory.set m a (BitVec.ofNat 8 v) else m) = true := by
      split
      · exact Memory.wf_set h _ _
      · exact h
    rw [Memory.setMasked, ih _ _ _ _ hw]
    by_cases hy : y = a
    · subst hy
      rw [if_neg (by omega)]
      by_cases hb : be % 2 = 1
      · rw [if_pos hb, Memory.get_set _ _ _ h, if_pos rfl, if_pos (by simp [hb])]; simp
      · rw [if_neg hb, if_neg (by simp [hb])]
    · have hg : Memory.get (if be % 2 = 1 then Memory.set m a (BitVec.ofNat 8 v) else m) y = Memory.get m y := by
        split
        · rw [Memory.get_set _ _ _ h, if_neg hy]
        · rfl
      rw [hg]
      by_cases hr : a + 1 ≤ y
      · obtain ⟨k, rfl⟩ : ∃ k, y = a + 1 + k := ⟨y - (a + 1), by omega⟩
        rw [show a + 1 + k - (a + 1) = k by omega, show a + 1 + k - a = k + 1 by omega, Nat.div_div_eq_div_mul, Nat.div_div_eq_div_mul,
          ← Nat.pow_succ', ← Nat.pow_succ']
        simp only [Nat.succ_eq_add_one]
        congr 1
        simp only [eq_iff_iff]
        constructor <;> rintro ⟨_, _, q⟩ <;> exact ⟨by omega, by omega, q⟩
      · rw [if_neg (by omega), if_neg (by omega)]

/-- Reading n bytes gives the n lowest bytes of a number below 256^n. -/
theorem Memory.getN_lt (m : Bytes) (n : Nat) : ∀ a : Nat, Memory.getN m a n < 256 ^ n := by
  induction n with
  | zero => intro a; simp [Memory.getN]
  | succ n ih =>
    intro a
    have := ih (a + 1)
    have hb := (Memory.get m a).isLt
    rw [Memory.getN, Nat.pow_succ]
    omega

/-- Two memories that agree on a span agree on the number read from it. -/
theorem Memory.getN_congr {m m' : Bytes} (n : Nat) : ∀ {a : Nat}, (∀ y, a ≤ y → y < a + n → Memory.get m' y = Memory.get m y) →
    Memory.getN m' a n = Memory.getN m a n := by
  induction n with
  | zero => intro a _; rfl
  | succ n ih =>
    intro a h
    rw [Memory.getN, Memory.getN, h a le_rfl (by omega), ih fun y h1 h2 => h y (by omega) (by omega)]

/-- What is stored is what is read (R6). -/
theorem Memory.getN_setN (n : Nat) : ∀ {m : Bytes} (a v : Nat), Memory.wf m = true → Memory.getN (Memory.setN m a n v) a n = v % 256 ^ n := by
  induction n with
  | zero => intro m a v _; simp [Memory.getN, Nat.mod_one]
  | succ n ih =>
    intro m a v h
    have low : (BitVec.ofNat 8 v).toNat = v % 256 := BitVec.toNat_ofNat ..
    rw [Memory.getN, Memory.get_setN _ _ _ _ h, if_pos (by omega), Memory.setN, ih _ _ (Memory.wf_set h _ _), Nat.sub_self, Nat.pow_zero, Nat.div_one, low,
      Nat.pow_succ', Nat.mod_mul]

/-- A store leaves every word outside its bytes alone. -/
theorem Memory.getN_setN_of_disjoint {m : Bytes} (h : Memory.wf m = true) {a n b k : Nat} (v : Nat) (hd : b + k ≤ a ∨ a + n ≤ b) :
    Memory.getN (Memory.setN m a n v) b k = Memory.getN m b k :=
  Memory.getN_congr k fun y h1 h2 => by rw [Memory.get_setN _ _ _ _ h, if_neg (by omega)]

/-! ### Marks -/

theorem Marks.has_add (p : List Nat) (k j : Nat) : Marks.has (Marks.add p k) j = (decide (j = k) || Marks.has p j) := by
  unfold Marks.has
  induction p with
  | nil => by_cases h : j = k <;> simp [Marks.add, h]
  | cons a p ih =>
    rw [Marks.add]
    split
    · by_cases h : j = k <;> simp [h]
    · split
      · subst_vars; by_cases h : j = a <;> simp [h]
      · rw [List.contains_cons, ih, List.contains_cons]
        by_cases h : j = a <;> by_cases h' : j = k <;> simp [h, h']

theorem Marks.has_del (p : List Nat) (k j : Nat) : Marks.has (Marks.del p k) j = (decide (j ≠ k) && Marks.has p j) := by
  unfold Marks.has Marks.del
  rw [Bool.eq_iff_iff]
  simp [and_comm]

theorem Marks.has_put (p : List Nat) (k j : Nat) (b : Bool) : Marks.has (Marks.put p k b) j = if j = k then b else Marks.has p j := by
  unfold Marks.put
  cases b <;> simp only [Bool.false_eq_true, if_true, if_false, Marks.has_add, Marks.has_del] <;> by_cases h : j = k <;> simp [h]

end Sys2Proof.Machine
end

