-- ==== Sys2Proof/Laws/Regs.lean ====
section
/-! SUPPORT. What reading registers gives after they are written: lane masks, lane registers, predicates, scalar registers; the
issue of a legal word. -/

namespace Sys2Proof.Machine

open Sys2Proof

/-- A sum of distinct powers of two, bit by bit. -/
theorem testBit_maskSum (f : Nat → Bool) (l : Nat) : ∀ n, l < n →
    ((List.range n).foldr (fun k x => (f k).toNat * 2 ^ k + x) 0).testBit l = f l := by
  have shift : ∀ (n c : Nat), (List.range n).foldr (fun k x => (f k).toNat * 2 ^ k + x) c
      = (List.range n).foldr (fun k x => (f k).toNat * 2 ^ k + x) 0 + c := by
    intro n
    induction n with
    | zero => intro c; simp
    | succ n ih => intro c; rw [List.range_succ, List.foldr_append, List.foldr_append, ih, ih ((List.foldr _ 0 [n]))]; simp; omega
  have bound : ∀ n, (List.range n).foldr (fun k x => (f k).toNat * 2 ^ k + x) 0 < 2 ^ n := by
    intro n
    induction n with
    | zero => simp
    | succ n ih =>
      rw [List.range_succ, List.foldr_append, shift]
      have : (f n).toNat * 2 ^ n ≤ 2 ^ n := by cases f n <;> simp
      simp; omega
  intro n
  induction n with
  | zero => simp
  | succ n ih =>
    intro h
    have b := bound n
    rw [List.range_succ, List.foldr_append, shift, Nat.add_comm]
    simp only [List.foldr_cons, List.foldr_nil, Nat.add_zero]
    rw [show (f n).toNat * 2 ^ n + _ = 2 ^ n * (f n).toNat + _ by rw [Nat.mul_comm], Nat.testBit_two_pow_mul_add _ b]
    split
    · exact ih ‹_›
    · have : l = n := by omega
      subst this; cases f l <;> simp

theorem getLsbD_laneMask (f : Nat → Bool) {l : Nat} (h : l < 32) : (laneMask f).getLsbD l = f l := by
  rw [laneMask, BitVec.getLsbD_ofNat, testBit_maskSum f l 32 h]; simp [h]

@[simp] theorem length_setLanes (w : Warp) (n : Nat) (m : LaneMask) (f : Nat → Word) (q : Nat → Bool) :
    (w.setLanes n m f q).v.length = w.v.length := by simp [Warp.setLanes]

theorem vreg_setLanes (w : Warp) {n : Nat} (m : LaneMask) (f : Nat → Word) (q : Nat → Bool) (hn : n < w.v.length) (r : Nat) {l : Nat}
    (hl : l < 32) : (w.setLanes n m f q).vreg r l = if r = n ∧ m.getLsbD l = true then f l else w.vreg r l := by
  by_cases h : r = n
  · subst h
    simp [Warp.setLanes, Warp.vreg, List.getD_eq_getElem?_getD, hn, lanes, hl]
  · simp [Warp.setLanes, Warp.vreg, List.getD_eq_getElem?_getD, Ne.symm h, h]

theorem vpsn_setLanes (w : Warp) {n : Nat} (m : LaneMask) (f : Nat → Word) (q : Nat → Bool) (hn : n < w.v.length) (r : Nat) {l : Nat}
    (hl : l < 32) : (w.setLanes n m f q).vpsn r l = if r = n ∧ m.getLsbD l = true then q l else w.vpsn r l := by
  by_cases h : r = n
  · subst h
    simp [Warp.setLanes, Warp.vpsn, List.getD_eq_getElem?_getD, hn, getLsbD_laneMask _ hl, -BitVec.getLsbD_eq_getElem]
  · simp [Warp.setLanes, Warp.vpsn, List.getD_eq_getElem?_getD, Ne.symm h, h]

/-- Writing lane registers changes nothing else of a warp. -/
theorem setLanes_frame (w : Warp) (n : Nat) (m : LaneMask) (f : Nat → Word) (q : Nat → Bool) :
    w.setLanes n m f q = { w with v := (w.setLanes n m f q).v } := rfl

theorem getLsbD_pred (w : Warp) (p : Nat) {l : Nat} (h : l < 32) :
    (w.pred p).getLsbD l = if p = 7 then true else (w.p.getD p 0).getLsbD l := by
  unfold Warp.pred
  split
  · rw [BitVec.getLsbD_allOnes]; simp [h]
  · rfl

/-- The acting lanes (R40, R159). -/
theorem getLsbD_acting (w : Warp) (g : Guard) {l : Nat} (h : l < 32) :
    (w.acting g).getLsbD l = (w.emask.getLsbD l && match g with
      | .always => true
      | .p0 => (w.pred 0).getLsbD l
      | .p1 => (w.pred 1).getLsbD l
      | .notP0 => !(w.pred 0).getLsbD l) := by
  cases g <;> simp [Warp.acting, h]

theorem mem_lanesOf (m : LaneMask) (l : Nat) : l ∈ lanesOf m ↔ l < 32 ∧ m.getLsbD l = true := by
  simp [lanesOf, lanes]

@[simp] theorem length_setPred (w : Warp) (p : Nat) (m : LaneMask) (f : Nat → Bool) : (w.setPred p m f).p.length = w.p.length := by
  unfold Warp.setPred; split <;> simp

theorem setPred_frame (w : Warp) (p : Nat) (m : LaneMask) (f : Nat → Bool) :
    w.setPred p m f = { w with p := (w.setPred p m f).p } := by
  unfold Warp.setPred; split <;> rfl

/-- A predicate after a write; p7 is never written (R62). -/
theorem getLsbD_setPred (w : Warp) {p : Nat} (m : LaneMask) (f : Nat → Bool) {q l : Nat} (hq : q < w.p.length) (h7 : q ≠ 7) (hl : l < 32) :
    ((w.setPred p m f).p.getD q 0).getLsbD l = if q = p ∧ m.getLsbD l = true then f l else (w.p.getD q 0).getLsbD l := by
  unfold Warp.setPred
  by_cases h : p = 7
  · subst h; simp [h7]
  · by_cases e : q = p
    · subst e
      simp [List.getD_eq_getElem?_getD, hq, getLsbD_laneMask _ hl, getLsbD_pred _ _ hl, h7, -BitVec.getLsbD_eq_getElem]
    · simp [List.getD_eq_getElem?_getD, Ne.symm e, e, h]

theorem setS_frame (w : Warp) (n : Nat) (v : Word) (q : Bool) :
    w.setS n v q = { w with s := w.s.set n v, sPsn := (w.setS n v q).sPsn } := rfl

/-- The poison marks of the scalar registers after a write (R394). -/
theorem getLsbD_setS (w : Warp) (n : Nat) (v : Word) (q : Bool) {r : Nat} (hr : r < 64) :
    (w.setS n v q).sPsn.getLsbD r = if r = n then q else w.sPsn.getLsbD r := by
  have bit : (BitVec.ofNat 64 (2 ^ n)).getLsbD r = decide (r = n) := by
    rw [BitVec.getLsbD_ofNat, Nat.testBit_two_pow]; simp [hr, eq_comm]
  unfold Warp.setS
  cases q
  · simp only [Bool.false_eq_true, if_false, BitVec.getLsbD_and, BitVec.getLsbD_not, bit]
    by_cases e : r = n <;> simp [e, hr, -BitVec.getLsbD_eq_getElem]
  · simp only [if_true, BitVec.getLsbD_or, bit]
    by_cases e : r = n <;> simp [e]

/-! ### The issue of a legal word -/

/-- Replacing an entry whatever it was. -/
theorem modify_const {α : Type} (a : α) : ∀ (l : List α) (i : Nat), l.modify i (fun _ => a) = l.set i a
  | [], i => by cases i <;> rfl
  | _ :: _, 0 => rfl
  | x :: l, i + 1 => by simp [modify_const a l i]

theorem issue_legal {i : Instr} {s : State} {c : Ctx} (hc : s.issuer = some c) (hl : legalAt i c.w c.gr = true) (k : Ctx → State) :
    issue i s k = .next (k c) := by
  simp [issue, hc, hl]

/-- A word that only changes its warp leaves the rest of the machine alone. -/
theorem retire_legal {i : Instr} {s : State} {c : Ctx} (hc : s.issuer = some c) (hl : legalAt i c.w c.gr = true) (f : Ctx → Warp) :
    retire i s f = .next { s with warps := s.warps.set s.cur ((f c).next i) } := by
  rw [retire, issue_legal hc hl]
  simp only [State.modWarp, modify_const]

end Sys2Proof.Machine
end

