-- ==== Sys2Proof/Laws/Trap.lean ====
section
/-! SUPPORT. The reconvergence stack, taking a trap and returning from one: everything each can do, said once (R43, R45, R192,
R196, R380, R387). -/

namespace Sys2Proof.Machine

open Sys2Proof

/-- A push answers the entry on top, with its state either unchanged (fewer than 32 entries in hardware) or with the lowest entry
written to its spill line; or it answers why it cannot push (R43, R45). -/
theorem push_cases (s : State) (w : Warp) (g : Workgroup) (gr : Grid) (e : StackEntry) :
    (gr.lrec.stackCap ≤ w.sdepth ∧ s.push w g gr e = .full) ∨
    (w.sdepth < gr.lrec.stackCap ∧ w.stack.length < 32 ∧ s.push w g gr e = .ok s { w with stack := e :: w.stack }) ∨
    (w.sdepth < gr.lrec.stackCap ∧ 32 ≤ w.stack.length ∧
      ((∃ x, s.spillCheck w g gr w.spilled true = .ok x ∧ s.push w g gr e =
          .ok (s.writeSpilled w g gr w.spilled (w.stack.getLastD default)) { w with stack := e :: w.stack.dropLast, spilled := w.spilled + 1 }) ∨
        s.push w g gr e = .probe gr.asid (privAddr w g gr.lrec (spillOff gr.lrec w.spilled) (spillLane w.spilled)) ∨
        s.push w g gr e = .room gr.asid (privAddr w g gr.lrec (spillOff gr.lrec w.spilled) (spillLane w.spilled)) ∨
        s.push w g gr e = .spill (spillOff gr.lrec w.spilled) (spillLane w.spilled))) := by
  unfold State.push
  split
  · exact .inl ⟨by omega, rfl⟩
  · split
    · exact .inr (.inl ⟨by omega, by assumption, rfl⟩)
    · refine .inr (.inr ⟨by omega, by omega, ?_⟩)
      split
      · exact .inr (.inl rfl)
      · exact .inr (.inr (.inr rfl))
      · simp only []
        split
        · exact .inl ⟨_, by assumption, rfl⟩
        · exact .inr (.inr (.inl rfl))

/-- A push never changes anything of the warp but its stack, and SDEPTH is one more. -/
theorem push_sdepth {s t : State} {w x : Warp} {g : Workgroup} {gr : Grid} {e : StackEntry} (h : s.push w g gr e = .ok t x) :
    x = { w with stack := x.stack, spilled := x.spilled } ∧ x.sdepth = w.sdepth + 1 ∧ x.stack.head? = some e := by
  obtain ⟨_, q⟩ | ⟨_, _, q⟩ | ⟨_, hl, ⟨_, _, q⟩ | q | q | q⟩ := push_cases s w g gr e <;> rw [q] at h <;> cases h
  · exact ⟨rfl, by simp only [Warp.sdepth, List.length_cons]; omega, rfl⟩
  · exact ⟨rfl, by simp only [Warp.sdepth, List.length_cons, List.length_dropLast]; omega, rfl⟩

/-- A pop that reads nothing back: with no spilled entry the top entry leaves, TRAPAT falls with SDEPTH, and the machine is as it
was (R43, R196). -/
theorem popTop_unspilled (s : State) {w : Warp} (g : Workgroup) (gr : Grid) (h : w.spilled = 0) :
    s.popTop w g gr = .ok s ({ w with stack := w.stack.drop 1 } : Warp).fixTrapAt := by
  simp [State.popTop, h]

/-- TAKING A TRAP with the room for its entry in hardware: the TRAP entry, s62, s63, the PC and TRAPAT; nothing else changes
(R192, R196, R380). -/
theorem takeTrap_enters {s : State} {i cause : Nat} {src resume : PC} {w : Warp} {g : Workgroup} {gr : Grid} (hw : s.warps[i]? = some w)
    (hg : s.wgs[w.wg]? = some g) (hr : s.grids[g.grid]? = some gr) (hh : gr.lrec.handlers.getD 0 0 ≠ 0) (hm : w.masked = false)
    (hc : w.sdepth < gr.lrec.stackCap) (hs : w.stack.length < 32) (ho : s.owes i [62, 63] = false) :
    s.takeTrap i cause src resume = { s with
      warps := s.warps.set i
        { ((w.setS 62 (BitVec.ofNat 32 src.toNat) false).setS 63 (BitVec.ofNat 32 cause) false) with
          stack := { pc := resume, mask := w.emask, fmt := w.fmt.setWidth 32, kind := 4, cause := BitVec.ofNat 8 cause } :: w.stack
          pc := gr.lrec.handlers.getD 0 0, trapAt := some w.sdepth, wait := .none } } := by
  unfold State.takeTrap
  simp only [hw, hg, hr, if_neg hh, hm, Bool.false_eq_true, if_false]
  obtain ⟨q, _⟩ | ⟨_, _, q⟩ | ⟨_, q, _⟩ := push_cases s w g gr { pc := resume, mask := w.emask, fmt := w.fmt.setWidth 32, kind := 4, cause := BitVec.ofNat 8 cause }
  · omega
  · rw [q]
    simp only [ho, Bool.false_eq_true, if_false, State.modWarp, modify_const, Warp.setS, Warp.sdepth, List.length_cons]
    rw [show w.stack.length + 1 + w.spilled - 1 = w.stack.length + w.spilled by omega]
  · omega

/-- With entry 0 empty, with traps masked or with the stack full, taking a trap kills the warp (R380). -/
theorem takeTrap_kills {s : State} {i cause : Nat} {src resume : PC} {w : Warp} {g : Workgroup} {gr : Grid} (hw : s.warps[i]? = some w)
    (hg : s.wgs[w.wg]? = some g) (hr : s.grids[g.grid]? = some gr) :
    (gr.lrec.handlers.getD 0 0 = 0 → s.takeTrap i cause src resume = s.kill i 4 cause 0 w.emask) ∧
    (gr.lrec.handlers.getD 0 0 ≠ 0 → w.masked = true → s.takeTrap i cause src resume = s.kill i 4 cause 1 w.emask) ∧
    (gr.lrec.handlers.getD 0 0 ≠ 0 → w.masked = false → gr.lrec.stackCap ≤ w.sdepth → s.takeTrap i cause src resume = s.kill i 4 cause 2 w.emask) := by
  refine ⟨fun h => ?_, fun h hm => ?_, fun h hm hc => ?_⟩
  · simp only [State.takeTrap, hw, hg, hr, h, if_true]
  · simp only [State.takeTrap, hw, hg, hr, if_neg h, hm, if_true]
  · simp only [State.takeTrap, hw, hg, hr, if_neg h, hm, Bool.false_eq_true, if_false]
    obtain ⟨_, q⟩ | ⟨q, _⟩ | ⟨q, _⟩ := push_cases s w g gr { pc := resume, mask := w.emask, fmt := w.fmt.setWidth 32, kind := 4, cause := BitVec.ofNat 8 cause }
    · rw [q]
    · omega
    · omega

/-- A pop by an instruction that takes the top entry's kind, with no spilled entry: EMASK, FMT and PC are the entry's, the entry
leaves, and nothing else changes (R43). A return from a trap is this pop of kind 4 (R196). -/
theorem popKind_restores {s : State} {i : Nat} {kinds : List Nat} {w : Warp} {g : Workgroup} {gr : Grid} {e : StackEntry} {rest : List StackEntry}
    (hw : s.warps[i]? = some w) (hg : s.wgs[w.wg]? = some g) (hr : s.grids[g.grid]? = some gr) (he : w.stack = e :: rest)
    (hk : kinds.contains e.kind.toNat = true) (hb : e.bad = false) (hs : w.spilled = 0) :
    s.popKind i kinds = { s with
      warps := s.warps.set i { (({ w with stack := rest } : Warp).fixTrapAt) with emask := e.mask, fmt := fmtOf e.fmt, pc := e.pc, wait := .none } } := by
  unfold State.popKind
  simp only [hw, hg, hr, he, hk, hb, Bool.not_false, Bool.and_self, if_true]
  have := popTop_unspilled s (w := { w with stack := e :: rest }) g gr hs
  have ew : ({ w with stack := e :: rest } : Warp) = w := by rw [← he]
  rw [ew] at this
  rw [this]
  simp only [State.modWarp, modify_const, Warp.restore, List.drop_succ_cons, List.drop_zero, he]

/-- A pop of an empty stack, or of an entry of another kind or with an uncorrectable error, kills the warp (R387, R397). -/
theorem popKind_kills {s : State} {i : Nat} {kinds : List Nat} {w : Warp} {g : Workgroup} {gr : Grid}
    (hw : s.warps[i]? = some w) (hg : s.wgs[w.wg]? = some g) (hr : s.grids[g.grid]? = some gr) :
    (w.stack = [] → s.popKind i kinds = s.kill i 2 0 0 0) ∧
    ∀ e rest, w.stack = e :: rest → (kinds.contains e.kind.toNat && !e.bad) = false →
      s.popKind i kinds = s.kill i 2 0 (BitVec.ofNat 32 w.sdepth) (e.words.getD 3 0) := by
  refine ⟨fun h => ?_, fun e rest he hk => ?_⟩
  · simp only [State.popKind, hw, hg, hr, h]
  · simp only [State.popKind, hw, hg, hr, he, hk, Bool.false_eq_true, if_false]

/-- EMASK, FMT, PC and what waits fall back with TRAPAT: the stack and the rest of the warp keep their values. -/
theorem fixTrapAt_frame (w : Warp) : w.fixTrapAt = { w with trapAt := if w.masked then w.trapAt else none } := by
  unfold Warp.fixTrapAt; split <;> rfl

/-- Waiting changes the warp's own note of it alone. -/
theorem waitFor_eq {s : State} {i : Nat} {w : Warp} (hw : s.warps[i]? = some w) (x : Wait) :
    s.waitFor i x = { s with warps := s.warps.set i { w with wait := x } } := by
  rw [State.waitFor, State.modWarp, modify_some hw]

end Sys2Proof.Machine
end

