-- ==== Sys2Proof/Tests/Slice0.lean ====
section
/-! SUPPORT. The model's own tests: for every obligation that has hypotheses, one theorem `witness_<Name>` that shows concrete states and operands meeting
them (one witness for each clause); decoding tests whose words are the lines that the spec encodes; WellFormed's smoke test, an ill-formed term for each check;
and the worked examples of the spec that are one instruction long. Expected values are the spec's. -/

/-! ### A small machine -/

namespace Sys2Proof.Tests

open Sys2Proof Sys2Proof.Machine Sys2Proof.Claims

-- one theorem at a time: theorems checked side by side need a thread each, and this file holds many
set_option Elab.async false

/-- A record of two descriptors and two warps, handler entry 0 at 0x10100. -/
def labRecord : Record :=
  { oneWarpRecord 0x10000 with
    ndesc := 2, nwarp := 2, handlers := 0x10100 :: List.replicate 15 0
    descs := [{ role := .general, cls := 0, allot := 16, count := 2, entry := 0x10000 }, { role := .vector, cls := 1, allot := 24, count := 0, entry := 0x10080 }] }

def labGrid : Grid := newGrid labRecord 0 0 (.host 0) .released

def labWg : Workgroup :=
  { grid := 0, seq := 1, die := 0, cl := 0, wg := 0, core := 0, status := .running, tiles := List.replicate 16 {}, bslots := List.replicate 64 {}
    bars := List.replicate 16 {}, rings := List.replicate 8 {} }

/-- A warp as its placement leaves it. -/
def labWarp : Warp := Warp.fresh 0 0 0 .general 0 0 16 0x10000 0 0

def labCtx (w : Warp) : Ctx := { w := w, g := labWg, gr := labGrid }

/-- A workgroup of two warps on core 0, the first issuing; page 0x10000 lies in frame 3 of die 0. -/
def lab (w : Warp) (g : Workgroup) (gr : Grid) : State :=
  { State.reset with
    warps := [w, { labWarp with num := 1, slot := 1 }], wgs := [g], grids := [gr], mem := codePage [] 0
    cores := { Core.mk0 with acb := [{ asid := 0, page := 1, lg := false, word0 := 0x86000000 }] } :: List.replicate 767 Core.mk0 }

theorem issuer_of {s : State} {w : Warp} {g : Workgroup} {gr : Grid} (h1 : s.warps[s.cur]? = some w) (h2 : s.wgs[w.wg]? = some g)
    (h3 : s.grids[g.grid]? = some gr) (h4 : w.status = .running) : s.issuer = some { w := w, g := g, gr := gr } := by
  simp [State.issuer, h1, h2, h3, h4]

/-- Word i is legal and issues in context c. -/
theorem lab_issues {i : Instr} {s : State} {c : Ctx} (h : (decide (s.issuer = some c) && legalAt i c.w c.gr) = true := by decide +kernel) : Issues i s c := by
  rw [Bool.and_eq_true, decide_eq_true_iff] at h; exact h

theorem labWarp_shaped : labWarp.Shaped := by simp [Warp.Shaped, labWarp, Warp.fresh]

theorem lab_warps (w : Warp) (g : Workgroup) (gr : Grid) : (lab w g gr).warps = [w, { labWarp with num := 1, slot := 1 }] := rfl

theorem witness_MovesWriteTheirValue : ∃ i x s c, moveOf i = some x ∧ Issues i s c ∧ c.w.Shaped :=
  ⟨.mov 127 3 .p0, _, lab labWarp labWg labGrid, labCtx labWarp, rfl, lab_issues, labWarp_shaped⟩

theorem witness_LaneIntegerArithmetic : ∃ i x s c, intOf i = some x ∧ Issues i s c ∧ c.w.Shaped :=
  ⟨.mad 5 5 127 .notP0, _, lab labWarp labWg labGrid, labCtx labWarp, rfl, lab_issues, labWarp_shaped⟩

theorem witness_LaneFieldsSelectsShuffles : ∃ i x s c, fieldOf i = some x ∧ Issues i s c ∧ c.w.Shaped :=
  ⟨.bfi 0 127 127 .always, _, lab labWarp labWg labGrid, labCtx labWarp, rfl, lab_issues, labWarp_shaped⟩

theorem witness_ComparesAndVotes : ∃ i x s c, predOf i = some x ∧ Issues i s c ∧ c.w.Shaped :=
  ⟨.voteEq 7 7 .p1, _, lab labWarp labWg labGrid, labCtx labWarp, rfl, lab_issues, labWarp_shaped⟩

theorem witness_FloatInstructionsComplete : ∃ i x s c, floatOf i = some x ∧ Issues i s c ∧ c.w.Shaped :=
  ⟨.ffma 1 2 3 .always, _, lab labWarp labWg labGrid, labCtx labWarp, rfl, lab_issues, labWarp_shaped⟩

theorem witness_FcmpComparesReals : ∃ i s c, i = Instr.fcmp .un 7 0 127 .p0 ∧ Issues i s c ∧ c.w.Shaped :=
  ⟨_, lab labWarp labWg labGrid, labCtx labWarp, rfl, lab_issues, labWarp_shaped⟩

theorem val32_zero : val32 0 = 0 := by
  rw [val32, show (0 : Word).toNat = 0 from rfl]; norm_num [floatVal, codeVal, fp32]
theorem val32_minus_zero : val32 0x80000000 = 0 := by
  rw [val32, show (0x80000000 : Word).toNat = 0x80000000 from rfl]; norm_num [floatVal, codeVal, fp32]
theorem val32_one : val32 0x3F800000 = 1 := by
  rw [val32, show (0x3F800000 : Word).toNat = 0x3F800000 from rfl]; norm_num [floatVal, codeVal, fp32]
theorem val32_minus_one : val32 0xBF800000 = -1 := by
  rw [val32, show (0xBF800000 : Word).toNat = 0xBF800000 from rfl]; norm_num [floatVal, codeVal, fp32]
theorem fin32_one : fin32 0x3F800000 ∧ fin32 0 ∧ fin32 0x80000000 ∧ fin32 0x7F7FFFFF := by simp [fin32, isFinite, topCode, fp32]

theorem witness_RoundNEIsNearestEven : ∃ F ∈ formats, ∃ m : Nat, m ≠ 0 :=
  ⟨e4m3, by simp [formats], 1, by decide⟩

theorem witness_FloatArithmeticRoundsOnce :
    (∃ a b c : Word, fin32 a ∧ fin32 b ∧ fin32 c ∧ val32 a * val32 b + val32 c ≠ 0) ∧
    (∃ a b : Word, fin32 a ∧ b.toNat % 256 ≠ 255 ∧ b.toNat / 256 % 256 ≠ 255) ∧
    (∃ a b c : Word, fin32 c ∧ ∀ i, i < 2 → isFinite bf16 (a.toNat / 2 ^ (16 * i) % 2 ^ 16) ∧ isFinite bf16 (b.toNat / 2 ^ (16 * i) % 2 ^ 16)) :=
  ⟨⟨0x3F800000, 0x3F800000, 0, fin32_one.1, fin32_one.1, fin32_one.2.1, by rw [val32_one, val32_zero]; norm_num⟩,
    ⟨0x3F800000, 0xFEFE, fin32_one.1, by decide, by decide⟩,
    ⟨0x7F7F0001, 0x80000080, 0, fin32_one.2.1, by intro i h; interval_cases i <;> simp [isFinite, topCode, bf16]⟩⟩

theorem witness_FloatSpecialOperands :
    (∃ a b : Word, fin32 a ∧ fin32 b ∧ val32 a + val32 b = 0 ∧ val32 a * val32 b = 0) ∧ (∃ a : Word, isNaN32 a) ∧
    (∃ a b : Word, a.toNat % 2 ^ 31 = 0 ∧ b.toNat % 2 ^ 31 = 0x7F800000) ∧ (∃ a b : Word, ¬isNaN32 a ∧ ¬isNaN32 b ∧ val32 a < val32 b) ∧
    ∃ a b : Word, isNaN32 a ∧ ¬isNaN32 b :=
  ⟨⟨0, 0x80000000, fin32_one.2.1, fin32_one.2.2.1, by rw [val32_zero, val32_minus_zero]; norm_num, by rw [val32_zero]; norm_num⟩,
    ⟨0x7F800001, by simp [isNaN32]⟩, ⟨0x80000000, 0xFF800000, by decide, by decide⟩,
    ⟨0, 0x3F800000, by simp [isNaN32], by simp [isNaN32], by rw [val32_zero, val32_one]; norm_num⟩, ⟨0xFFFFFFFF, 0x7F800000, by simp [isNaN32], by simp [isNaN32]⟩⟩

theorem witness_RootsAndReciprocalsRoundOnce :
    (∃ a : Word, fin32 a ∧ val32 a ≠ 0 ∧ 0 < val32 a) ∧ (∃ a : Word, fin32 a ∧ val32 a < 0) ∧ ∃ a : Word, isNaN32 a :=
  ⟨⟨0x3F800000, fin32_one.1, by rw [val32_one]; norm_num, by rw [val32_one]; norm_num⟩, ⟨0xBF800000, by simp [fin32, isFinite, topCode, fp32], by rw [val32_minus_one]; norm_num⟩,
    ⟨0x7FC00000, by simp [isNaN32]⟩⟩

theorem witness_IntegerConversionRoundsThenClamps : (false, 32) ∈ [(true, 8), (true, 32), (false, 32)] := by decide

theorem witness_ScalarArithmetic : ∃ i x s c, scalarOf i = some x ∧ Issues i s c :=
  ⟨.ssel 63 0 63, _, lab labWarp labWg labGrid, labCtx labWarp, rfl, lab_issues⟩

theorem witness_ScalarConstantsAndReads : ∃ i n d f s c, readOf i = some (n, d, f) ∧ Issues i s c :=
  ⟨.kqry 63 15, _, _, _, lab labWarp labWg labGrid, labCtx labWarp, rfl, lab_issues⟩

theorem witness_SpecialRegistersReadAndWrite :
    (∃ (d : Fin 64) (n : BitVec 13) (s : State) (c : Ctx), n = 0x18 ∧ Issues (.srd d n) s c) ∧
    (∃ (d : Fin 64) (n : BitVec 13) (s : State) (c : Ctx), Issues (.srd d n) s c ∧ assignedNumber n.toNat = false) ∧
    ∃ (a : Fin 64) (n : BitVec 13) (s : State) (c : Ctx), n = 0x10 ∧ Issues (.swr a n) s c :=
  ⟨⟨63, 0x18, lab labWarp labWg labGrid, labCtx labWarp, rfl, lab_issues⟩, ⟨0, 0x17, lab labWarp labWg labGrid, labCtx labWarp, lab_issues, by decide⟩,
    ⟨63, 0x10, lab labWarp labWg labGrid, labCtx labWarp, rfl, lab_issues⟩⟩

theorem witness_StatusWrites : ∃ s c, Issues (.emwr 0) s c ∧ Issues (.sfmt 0) s c ∧ Issues (.sfmtLiteral 0xFFFFFFFF) s c ∧ Issues .snop s c :=
  ⟨lab labWarp labWg labGrid, labCtx labWarp, lab_issues, lab_issues, lab_issues, lab_issues⟩

/-! ### Control flow -/

theorem witness_BranchesGoWhereR186Says : ∃ s c, Issues (.bra (-1)) s c ∧ Issues (.brcNz 1 0) s c ∧ c.w.sreg 1 = 0 ∧ Issues (.brany false 7 5) s c ∧
    (∃ l, l < 32 ∧ c.w.emask.getLsbD l = true ∧ condBit c.w false 7 l = true) ∧ Issues (.brall true 7 5) s c :=
  ⟨lab labWarp labWg labGrid, labCtx labWarp, lab_issues, lab_issues, rfl, lab_issues, ⟨31, by decide⟩, lab_issues⟩

/-- The lab's warp with p0 true in lane 0, and with an entry of each kind on its stack. -/
def splitWarp : Warp := { labWarp with p := labWarp.p.set 0 1 }
def entryWarp (kind : BitVec 4) : Warp :=
  { labWarp with stack := [{ pc := 0x10010, mask := 3, fmt := 0x11, kind := kind, cause := 0x42 }], trapAt := some 0 }

theorem witness_CallAndSplitPush : ∃ s c, Issues (.call (-1)) s c ∧ hasRoom c 2 ∧ Issues (.split false 0 1023 2047) s c ∧
    lanesWith c.w false 0 ≠ 0 ∧ lanesWithout c.w false 0 ≠ 0 ∧ lanesWithout c.w false 7 = 0 ∧ lanesWith c.w true 7 = 0 :=
  ⟨lab splitWarp labWg labGrid, labCtx splitWarp, lab_issues, ⟨by decide, by decide⟩, lab_issues, by decide +kernel, by decide +kernel, by decide +kernel,
    by decide +kernel⟩

/-- A warp with 32 entries of a kind in hardware, and some spilled. -/
def deepWarp (kind : BitVec 4) (spilled : Nat) : Warp :=
  { labWarp with stack := List.replicate 32 { pc := 0x10010, mask := 3, fmt := 0x11, kind := kind, cause := 0x42 }, spilled := spilled }

/-- The lab with page 0x20, which holds the private region and the spilled entries, in the access check buffer. -/
def privLab (w : Warp) (word0 : Word) (gr : Grid := labGrid) : State :=
  { lab w labWg gr with
    cores := { Core.mk0 with acb := [{ asid := 0, page := 1, lg := false, word0 := 0x86000000 }, { asid := 0, page := 0x20, lg := false, word0 := word0 }] } ::
      List.replicate 767 Core.mk0 }

theorem pageAllows_of {w : Word} {write : Bool} (h : (w.getLsbD 31 && decide (w.toNat / 2 ^ 28 % 4 ≠ 3) && (!write || w.getLsbD 26)) = true) : pageAllows w write := by
  simp only [Bool.and_eq_true, decide_eq_true_eq, Bool.or_eq_true, Bool.not_eq_true'] at h
  exact ⟨h.1.1, h.1.2, fun hw => by rcases h.2 with h2 | h2
                                    · rw [hw] at h2; cases h2
                                    · exact h2⟩

theorem not_pageAllows_of {w : Word} {write : Bool} (h : (w.getLsbD 31 && decide (w.toNat / 2 ^ 28 % 4 ≠ 3) && (!write || w.getLsbD 26)) = false) : ¬pageAllows w write := by
  rintro ⟨h1, h2, h3⟩
  cases write <;> simp_all

/-- CALL and SPLIT on a full stack: beyond the capacity; with the page of the next spilled entry read-only, not probed, and ready. -/
theorem witness_CallAndSplitPush_spill :
    (∃ s c, Issues (.call 0) s c ∧ pushes (.call 0) c.w = some 1 ∧ 32 + 8 * c.gr.lrec.spillLines < c.w.stack.length + c.w.spilled + 1) ∧
    (∃ s c, Issues (.split false 7 0 1) s c ∧ pushes (.split false 7 0 1) c.w = some 1 ∧ c.w.stack.length = 32 ∧
      32 + c.w.spilled + 1 ≤ 32 + 8 * c.gr.lrec.spillLines ∧ spillFails s c c.w.spilled true) ∧
    (∃ s c, Issues (.call 0) s c ∧ c.w.stack.length = 32 ∧ 32 + c.w.spilled + 1 ≤ 32 + 8 * c.gr.lrec.spillLines ∧ spillAt c c.w.spilled + 16 ≤ 2 ^ 52 ∧
      pageWord s c (spillAt c c.w.spilled) = none) ∧
    ∃ s c w last, Issues (.call 0) s c ∧ c.w.stack.length = 32 ∧ c.w.spilled < 8 * c.gr.lrec.spillLines ∧ c.w.stack.getLast? = some last ∧ last.bad = false ∧
      spillAt c c.w.spilled % 16 = 0 ∧ spillAt c c.w.spilled + 16 ≤ 2 ^ 52 ∧ pageWord s c (spillAt c c.w.spilled) = some w ∧ pageAllows w true ∧
      s.privRoom c.g.core c.gr.asid (spillAt c c.w.spilled) = true :=
  ⟨⟨lab (deepWarp 3 8) labWg labGrid, labCtx (deepWarp 3 8), lab_issues, rfl, by decide⟩,
    ⟨privLab (deepWarp 3 7) 0x82000000, labCtx (deepWarp 3 7), lab_issues, by decide +kernel, rfl, by decide,
      .inr ⟨0x82000000, by decide, by decide +kernel, not_pageAllows_of (by decide)⟩⟩,
    ⟨lab (deepWarp 3 0) labWg labGrid, labCtx (deepWarp 3 0), lab_issues, rfl, by decide, by decide, by decide +kernel⟩,
    ⟨privLab (deepWarp 3 7) 0x86000000, labCtx (deepWarp 3 7), 0x86000000, _, lab_issues, rfl, by decide, rfl, rfl, by decide, by decide, by decide +kernel,
      pageAllows_of (by decide), by decide +kernel⟩⟩

/-- One set of the L1 can be full, whatever a line's set is: of 2,049 lines some 17 lie in one of the 128 sets. -/
theorem full_set : ∃ (t : Nat) (ls : List Nat), t < 2049 ∧ ls.length = 16 ∧ t ∉ ls ∧
    ∀ n ∈ ls, Config.cacheSet 1 0 (2 ^ 20 + n) % 128 = Config.cacheSet 1 0 (2 ^ 20 + t) % 128 := by
  obtain ⟨y, hy⟩ := Fintype.exists_lt_card_fiber_of_mul_lt_card (n := 16) (fun i : Fin 2049 => (⟨Config.cacheSet 1 0 (2 ^ 20 + i.val) % 128, Nat.mod_lt _ (by decide)⟩ : Fin 128))
    (by simp)
  obtain ⟨u, hu, hc⟩ := Finset.exists_subset_card_eq hy
  obtain ⟨t, ht⟩ : u.Nonempty := Finset.card_pos.1 (by omega)
  refine ⟨t.val, ((u.erase t).toList.map Fin.val), t.isLt, by simp [Finset.card_erase_of_mem ht, hc], ?_, ?_⟩
  · simp only [List.mem_map, Finset.mem_toList, Finset.mem_erase, not_exists, not_and]
    exact fun x hx h => hx.1 (Fin.ext h)
  · simp only [List.mem_map, Finset.mem_toList, Finset.mem_erase, forall_exists_index, and_imp]
    rintro _ x - hx rfl
    have a := (Finset.mem_filter.1 (hu hx)).2
    have b := (Finset.mem_filter.1 (hu ht)).2
    exact congrArg Fin.val (a.trans b.symm)

/-- The lab's grid with its private region at a place. -/
def privGrid (base : Nat) : Grid := { labGrid with lrec := { labRecord with privBase := base } }

theorem witness_CallAndSplitPush_room : ∃ s c w, Issues (.call 0) s c ∧ c.w.stack.length = 32 ∧ 32 + c.w.spilled + 1 ≤ 32 + 8 * c.gr.lrec.spillLines ∧
    spillAt c c.w.spilled + 16 ≤ 2 ^ 52 ∧ pageWord s c (spillAt c c.w.spilled) = some w ∧ pageAllows w true ∧
    s.privRoom c.g.core c.gr.asid (spillAt c c.w.spilled) = false := by
  obtain ⟨t, ls, ht, hl, hn, hs⟩ := full_set
  have at_ : spillAt { w := deepWarp 3 0, g := labWg, gr := privGrid (128 * (2 ^ 20 + t - 255)) } 0 = 128 * (2 ^ 20 + t) := by
    simp only [spillAt, spillOffset, privGrid, labGrid, newGrid, labRecord, oneWarpRecord]
    norm_num [privIndex, deepWarp, labWarp, Warp.fresh, labWg, Workgroup.flat]
    omega
  refine ⟨{ lab (deepWarp 3 0) labWg (privGrid (128 * (2 ^ 20 + t - 255))) with
      cores := { Core.mk0 with acb := [{ asid := 0, page := 128 * (2 ^ 20 + t) / 2 ^ 16, lg := false, word0 := 0x86000000 }]
                               l1 := ls.map fun n => { asid := 0, line := 2 ^ 20 + n, grain := 1, valid := 15, data := 0 } } :: List.replicate 767 Core.mk0 },
    { w := deepWarp 3 0, g := labWg, gr := privGrid (128 * (2 ^ 20 + t - 255)) }, 0x86000000, ⟨issuer_of rfl rfl rfl rfl, rfl⟩, rfl, (by decide : 32 + 0 + 1 ≤ 40), ?_, ?_, pageAllows_of (by decide), ?_⟩
  · have : (deepWarp 3 0).spilled = 0 := rfl
    simp only [this, at_]; omega
  · show pageWord _ _ (spillAt _ 0) = _
    rw [at_]
    simp only [pageWord, State.core, AcbEntry.covers, labWg, privGrid, labGrid, newGrid]
    norm_num [List.find?]
  · show State.privRoom _ 0 0 (spillAt _ 0) = _
    rw [at_, State.privRoom, show 128 * (2 ^ 20 + t) / 128 = 2 ^ 20 + t by omega]
    simp only [State.core, List.getD_cons_zero, cacheRoom, List.length_map, hl, List.filter_map, Bool.or_eq_false_iff, decide_eq_false_iff_not]
    refine ⟨⟨by omega, ?_⟩, ?_⟩
    · simp only [List.any_map, List.any_eq_false, Function.comp, beq_self_eq_true, Bool.true_and, beq_iff_eq]
      intro n h1 h2
      exact hn (by rwa [show n = t by omega] at h1)
    · rw [List.filter_eq_self.2 (by intro n h; simpa using hs n h), hl]; omega

theorem witness_PopsRestore :
    (∃ s c e rest, Issues .ret s c ∧ c.w.spilled = 0 ∧ c.w.stack = e :: rest ∧ e.kind.toNat = 3 ∧ e.bad = false) ∧
    (∃ s c e rest, Issues .join s c ∧ c.w.spilled = 0 ∧ c.w.stack = e :: rest ∧ e.kind.toNat = 1 ∧ e.bad = false) ∧
    ∃ s c e rest, Issues .rtt s c ∧ c.w.spilled = 0 ∧ c.w.stack = e :: rest ∧ e.kind.toNat = 4 ∧ e.bad = false :=
  ⟨⟨lab (entryWarp 3) labWg labGrid, labCtx (entryWarp 3), _, _, lab_issues, rfl, rfl, rfl, rfl⟩, ⟨lab (entryWarp 1) labWg labGrid, labCtx (entryWarp 1), _, _, lab_issues, rfl, rfl, rfl, rfl⟩,
    ⟨lab (entryWarp 4) labWg labGrid, labCtx (entryWarp 4), _, _, lab_issues, rfl, rfl, rfl, rfl⟩⟩

/-- The lab with a full stack and eight spilled entries, their page readable, its word k of the last one poisoned or not. -/
def fillLab (bad : BitVec 32) : State :=
  let s := privLab (deepWarp 3 8) 0x82000000
  { s with cores := s.cores.set 0 { s.core 0 with l1 := [{ asid := 0, line := 0x207F80 / 128, grain := 1, valid := 15, data := 0, psn := bad, isPriv := true }] } }

/-- RET with entries spilled: the fill is made, waits for its page, fails its check, returns poison. -/
theorem witness_PopsRestore_fill :
    (∃ s c e rest w, Issues .ret s c ∧ c.w.stack = e :: rest ∧ e.kind.toNat = 3 ∧ e.bad = false ∧ 0 < c.w.spilled ∧ rest.length < 32 ∧
      spillAt c (c.w.spilled - 1) + 16 ≤ 2 ^ 52 ∧ pageWord s c (spillAt c (c.w.spilled - 1)) = some w ∧ pageAllows w false ∧
      ∀ k, k < 4 → (s.privRead c.g.core c.gr.asid (spillAt c (c.w.spilled - 1) + 4 * k) 4).2 = 0) ∧
    (∃ s c e rest, Issues .ret s c ∧ c.w.stack = e :: rest ∧ e.kind.toNat = 3 ∧ 0 < c.w.spilled ∧ pageWord s c (spillAt c (c.w.spilled - 1)) = none) ∧
    (∃ s c e rest, Issues .ret s c ∧ c.w.stack = e :: rest ∧ e.kind.toNat = 3 ∧ 0 < c.w.spilled ∧ spillFails s c (c.w.spilled - 1) false) ∧
    ∃ s c e rest w, Issues .ret s c ∧ c.w.stack = e :: rest ∧ e.kind.toNat = 3 ∧ 0 < c.w.spilled ∧ pageWord s c (spillAt c (c.w.spilled - 1)) = some w ∧
      pageAllows w false ∧ (s.privRead c.g.core c.gr.asid (spillAt c (c.w.spilled - 1) + 4 * 3) 4).2 ≠ 0 :=
  ⟨⟨fillLab 0, labCtx (deepWarp 3 8), _, _, 0x82000000, lab_issues, rfl, rfl, rfl, by decide, by decide, by decide, by decide +kernel, pageAllows_of (by decide), by decide +kernel⟩,
    ⟨lab (deepWarp 3 1) labWg labGrid, labCtx (deepWarp 3 1), _, _, lab_issues, rfl, rfl, by decide, by decide +kernel⟩,
    ⟨privLab (deepWarp 3 1) 0x06000000, labCtx (deepWarp 3 1), _, _, lab_issues, rfl, rfl, by decide, .inr ⟨0x06000000, by decide, by decide +kernel, not_pageAllows_of (by decide)⟩⟩,
    ⟨fillLab (BitVec.allOnes 32), labCtx (deepWarp 3 8), _, _, 0x82000000, lab_issues, rfl, rfl, by decide, by decide +kernel, pageAllows_of (by decide), by decide +kernel⟩⟩

theorem witness_BadPopsKill : (∃ s c, Issues .ret s c ∧ c.w.stack = []) ∧
    (∃ s c e rest, Issues .rtt s c ∧ c.w.stack = e :: rest ∧ e.kind.toNat ∉ [4]) ∧ ∃ s c e rest, Issues .rtt s c ∧ c.w.stack = e :: rest ∧ e.kind.toNat = 4 ∧ e.bad = true :=
  ⟨⟨lab labWarp labWg labGrid, labCtx labWarp, lab_issues, rfl⟩, ⟨lab (entryWarp 3) labWg labGrid, labCtx (entryWarp 3), _, _, lab_issues, rfl, by decide⟩,
    ⟨lab { labWarp with stack := [{ pc := 0, mask := 1, fmt := 0, kind := 4, cause := 0, bad := true }] } labWg labGrid,
      labCtx { labWarp with stack := [{ pc := 0, mask := 1, fmt := 0, kind := 4, cause := 0, bad := true }] }, _, _, lab_issues, rfl, rfl, rfl⟩⟩

/-- What EXIT leaves of a stack (R191). -/
def leftOf (w : Warp) : List StackEntry :=
  (w.stack.map fun (e : StackEntry) => { e with mask := e.mask &&& ~~~w.emask }).dropWhile fun e => e.mask == 0

theorem witness_ExitLeavesOrEnds :
    (∃ s c e rest, Issues .exit s c ∧ c.w.spilled = 0 ∧ (∀ x ∈ c.w.stack, x.bad = false) ∧ leftOf c.w = e :: rest ∧ 1 ≤ e.kind.toNat ∧ e.kind.toNat ≤ 4) ∧
    (∃ s c, Issues .exit s c ∧ c.w.spilled = 0 ∧ (∀ x ∈ c.w.stack, x.bad = false) ∧ leftOf c.w = [] ∧
      ∃ j x, j ≠ s.cur ∧ s.warps[j]? = some x ∧ x.wg = c.w.wg ∧ x.status = .running) ∧
    (∃ s c, Issues .exit s c ∧ 0 < c.w.spilled ∧ spillFails s c 0 true) ∧
    ∃ s c, Issues .exit s c ∧ 0 < c.w.spilled ∧ spillAt c 0 + 16 ≤ 2 ^ 52 ∧ pageWord s c (spillAt c 0) = none :=
  ⟨⟨lab { entryWarp 1 with emask := 1 } labWg labGrid, labCtx { entryWarp 1 with emask := 1 }, _, _, lab_issues, rfl, by decide, rfl, by decide, by decide⟩,
    ⟨lab (entryWarp 1) labWg labGrid, labCtx (entryWarp 1), lab_issues, rfl, by decide, rfl, 1, _, by decide, rfl, rfl, rfl⟩,
    ⟨privLab (deepWarp 3 8) 0x82000000, labCtx (deepWarp 3 8), lab_issues, by decide, .inr ⟨0x82000000, by decide, by decide +kernel, not_pageAllows_of (by decide)⟩⟩,
    ⟨lab (deepWarp 3 8) labWg labGrid, labCtx (deepWarp 3 8), lab_issues, by decide, by decide, by decide +kernel⟩⟩

theorem unmasked_none {w : Warp} (h : w.trapAt = none) : unmasked w := fun n hn => by rw [h] at hn; cases hn

/-- With no result for s62 or s63 on the way, room on the stack and traps unmasked a warp enters its handler. -/
theorem canTrap_of {s : State} {c : Ctx} (h1 : handler0 c ≠ 0 := by decide +kernel) (h2 : c.w.trapAt = none := by rfl)
    (h3 : c.w.stack.length + 1 ≤ 32 ∧ c.w.stack.length + c.w.spilled + 1 ≤ 32 + 8 * c.gr.lrec.spillLines := by decide +kernel) (h4 : s.ops = [] := by rfl) : canTrap s c :=
  ⟨h1, unmasked_none h2, h3, fun o ho => by rw [h4] at ho; cases ho⟩

theorem lab_canTrap : handler0 (labCtx labWarp) ≠ 0 ∧ unmasked labWarp ∧ hasRoom (labCtx labWarp) 1 := ⟨by decide, unmasked_none rfl, ⟨by decide, by decide⟩⟩

/-- An SLD to s63 of the lab's warp, its word still to come. -/
def slowOp : Op := { kind := .mem .load 63 4 false true, warp := 0, wg := 0, core := 0, pc := 0x10000, sc := .wg }

theorem witness_TrapEntersTheHandler : (∃ s c, Issues (.trap 63) s c ∧ handler0 c ≠ 0 ∧ unmasked c.w ∧ hasRoom c 1 ∧ trapWordsFree s s.cur) ∧
    ∃ s c, Issues (.trap 63) s c ∧ handler0 c ≠ 0 ∧ unmasked c.w ∧ hasRoom c 1 ∧ ¬trapWordsFree s s.cur :=
  ⟨⟨lab labWarp labWg labGrid, labCtx labWarp, lab_issues, lab_canTrap.1, lab_canTrap.2.1, lab_canTrap.2.2, fun o ho => by cases ho⟩,
    ⟨{ lab labWarp labWg labGrid with ops := [slowOp] }, labCtx labWarp, lab_issues, lab_canTrap.1, lab_canTrap.2.1, lab_canTrap.2.2,
      fun h => (h slowOp (by simp) rfl).2 (by decide)⟩⟩

/-- The lab's grid with no handler. -/
def bareGrid : Grid := { labGrid with lrec := { labRecord with handlers := List.replicate 16 0 } }

/-- A warp in its handler. -/
def maskedWarp : Warp := entryWarp 4

theorem maskedWarp_masked : ¬unmasked maskedWarp := fun h => absurd (h 0 rfl) (by decide)

theorem witness_TrapsThatCannotEnterKill : (∃ s c, Issues (.trap 0) s c ∧ cannotTrap c 0) ∧ (∃ s c, Issues (.trap 0) s c ∧ cannotTrap c 1) ∧
    (∃ s c, Issues (.trap 0) s c ∧ cannotTrap c 2) ∧
    (∃ s c, Issues .tfence s c ∧ (∀ o ∈ s.ops, o.warp = s.cur → o.flagsLater = false) ∧ unmasked c.w ∧ cannotTrap c 0 ∧
      (c.w.aflags.toNat &&& c.w.aflags.toNat / 2 ^ 16) % 2 ^ 7 ≠ 0) ∧
    (∃ i s c, Issues i s c ∧ TrapsWith i s c 1 ∧ cannotTrap c 0) ∧ ∃ i s c, Issues i s c ∧ TrapsWith i s c 2 ∧ cannotTrap c 1 :=
  ⟨⟨lab labWarp labWg bareGrid, { w := labWarp, g := labWg, gr := bareGrid }, lab_issues, .inl ⟨by decide, rfl⟩⟩,
    ⟨lab maskedWarp labWg labGrid, labCtx maskedWarp, lab_issues, .inr (.inl ⟨by decide, maskedWarp_masked, rfl⟩)⟩,
    ⟨lab { labWarp with spilled := 40 } labWg labGrid, labCtx { labWarp with spilled := 40 }, lab_issues, .inr (.inr ⟨by decide, unmasked_none rfl, by decide, rfl⟩)⟩,
    ⟨lab { labWarp with aflags := 0x00400040 } labWg bareGrid, { w := { labWarp with aflags := 0x00400040 }, g := labWg, gr := bareGrid }, lab_issues, by decide,
      unmasked_none rfl, .inl ⟨by decide, rfl⟩, by decide⟩,
    ⟨.tcfg 0 0 0 15, lab { labWarp with emask := 1 } labWg bareGrid, { w := { labWarp with emask := 1 }, g := labWg, gr := bareGrid }, lab_issues,
      .inr (.inr (.inl ⟨⟨_, rfl⟩, by decide, rfl⟩)), .inl ⟨by decide, rfl⟩⟩,
    ⟨.barr 0 0, lab maskedWarp labWg labGrid, labCtx maskedWarp, lab_issues, .inr (.inr (.inr (.inr (.inl ⟨⟨0, 0, .inl rfl, by decide⟩, rfl⟩)))),
      .inr (.inl ⟨by decide, maskedWarp_masked, rfl⟩)⟩⟩

theorem witness_TfenceTrapsOnFlags : ∃ s c, Issues .tfence s c ∧ (∀ o ∈ s.ops, o.warp = s.cur → o.flagsLater = false) ∧
    (c.w.aflags.toNat &&& c.w.aflags.toNat / 2 ^ 16) % 2 ^ 7 ≠ 0 ∧ unmasked c.w ∧ handler0 c ≠ 0 ∧ hasRoom c 1 ∧ trapWordsFree s s.cur :=
  ⟨lab { labWarp with aflags := 0x00400040 } labWg labGrid, labCtx { labWarp with aflags := 0x00400040 }, lab_issues, by decide, by decide, unmasked_none rfl,
    by decide, ⟨by decide, by decide⟩, fun o ho => by cases ho⟩

theorem witness_IllegalWordsPassOrKill :
    (∃ (i : Instr) (s : State) (c : Ctx), i.isWord = true ∧ s.issuer = some c ∧ legalAt i c.w c.gr = false ∧ c.gr.lrec.legal = false ∧ c.w.emask = 0) ∧
    (∃ (i : Instr) (s : State) (c : Ctx), i.isWord = true ∧ s.issuer = some c ∧ legalAt i c.w c.gr = false ∧ c.w.emask ≠ 0) ∧
    (∃ (s : State) (c : Ctx), s.issuer = some c ∧ c.gr.lrec.legal = false ∧ c.w.emask = 0) ∧ ∃ (s : State) (c : Ctx), s.issuer = some c ∧ c.w.emask ≠ 0 :=
  ⟨⟨.mov 0 1 .always, lab { labWarp with emask := 0, allot := 0 } labWg labGrid, labCtx { labWarp with emask := 0, allot := 0 }, rfl, issuer_of rfl rfl rfl rfl, rfl, rfl, rfl⟩,
    ⟨.mov 0 1 .always, lab { labWarp with allot := 0 } labWg labGrid, labCtx { labWarp with allot := 0 }, rfl, issuer_of rfl rfl rfl rfl, rfl, by decide⟩,
    ⟨lab { labWarp with emask := 0 } labWg labGrid, labCtx { labWarp with emask := 0 }, issuer_of rfl rfl rfl rfl, rfl, rfl⟩,
    ⟨lab labWarp labWg labGrid, labCtx labWarp, issuer_of rfl rfl rfl rfl, by decide⟩⟩

/-! ### Memory, keys, barriers, pools, roles -/

/-- A warp with the given lanes active; v0 and v1 hold the global addresses 0x10000, 0x10001 and 0x20000 in lanes 0 to 2, s2 and s3
0x10000. -/
def addrWarp (mask : LaneMask) : Warp :=
  { labWarp with emask := mask, v := { val := [0x10000, 0x10001, 0x20000] ++ List.replicate 29 0, psn := 0 } :: labWarp.v.drop 1
                 s := labWarp.s.set 2 0x10000 }

/-- Operands of a lane memory instruction at v0 and v1, a key k0. -/
def atV0 : LmArgs := { addr := 0, prod := 0, cons := 15, off := none, grd := .always }

theorem one_lane {P : Nat → Prop} {ls : List Nat} {a : Nat} (h : ls = [a]) (ha : P a) : ∀ l ∈ ls, P l := by
  intro l hl; rw [h, List.mem_singleton] at hl; exact hl ▸ ha

/-- v0 with an offset in lane 0, for the private region. -/
def privWarp (x : Word) : Warp := { labWarp with emask := 1, v := { val := x :: List.replicate 31 0, psn := 0 } :: labWarp.v.drop 1 }

/-- All words of a private access of the lab are allowed. -/
theorem privWord_of {s : State} {c : Ctx} {f : MemForm} {x l n : Nat} (w : Word)
    (h : (decide (privWordVa c x l n < 2 ^ 52) && decide (pageWord s c (privWordVa c x l n) = some w) && decide (pageCause f w = none)) = true) : privWordOk s c f x l n := by
  simp only [Bool.and_eq_true, decide_eq_true_eq] at h
  exact ⟨h.1.1, w, h.1.2, h.2⟩

theorem witness_LaneMemoryIssues :
    (∃ i m f s c, memOf i = some (m, f) ∧ Issues i s c ∧ actingLanes c.w m.grd = []) ∧
    (∃ i m f s c, memOf i = some (m, f) ∧ f.space = .global ∧ Issues i s c ∧ actingLanes c.w m.grd ≠ [] ∧ canProduce c.w m.prod ∧
      ∀ l ∈ actingLanes c.w m.grd, laneReady s c f m l) ∧
    (∃ i m f s c, memOf i = some (m, f) ∧ f.space = .scratch ∧ Issues i s c ∧ actingLanes c.w m.grd ≠ [] ∧ canProduce c.w m.prod ∧
      ∀ l ∈ actingLanes c.w m.grd, laneReady s c f m l) ∧
    (∃ i m f s c, memOf i = some (m, f) ∧ f.space = .priv ∧ privWords f = 4 ∧ Issues i s c ∧ actingLanes c.w m.grd ≠ [] ∧ canProduce c.w m.prod ∧
      ∀ l ∈ actingLanes c.w m.grd, laneReady s c f m l) ∧
    ∃ i m f s c, memOf i = some (m, f) ∧ Issues i s c ∧ actingLanes c.w m.grd ≠ [] ∧ m.prod ≠ 15 ∧ (c.w.keys.getD m.prod {}).st = .closed :=
  ⟨⟨.ld 2 atV0 .b32 (.global .sys), _, _, lab (addrWarp 0) labWg labGrid, labCtx (addrWarp 0), rfl, lab_issues, by decide⟩,
    ⟨.st 2 atV0 .b32 (.global .sys), _, _, lab (addrWarp 1) labWg labGrid, labCtx (addrWarp 1), rfl, rfl, lab_issues, by decide, .inr ⟨by decide, by decide⟩,
      one_lane (a := 0) (by decide) ⟨by decide +kernel, fun h => absurd h.2.2 (by decide +kernel)⟩⟩,
    ⟨.sts 2 { atV0 with addr := 4 } .b128 .wg, _, _, lab (addrWarp 1) labWg labGrid, labCtx (addrWarp 1), rfl, rfl, lab_issues, by decide, .inr ⟨by decide, by decide⟩,
      one_lane (a := 0) (by decide) (show scratchCause _ _ _ = none by decide +kernel)⟩,
    ⟨.st 4 atV0 .b128 .priv, _, _, privLab (privWarp 0x3F0) 0x86000000, labCtx (privWarp 0x3F0), rfl, rfl, rfl, lab_issues, by decide, .inr ⟨by decide, by decide⟩,
      one_lane (a := 0) (by decide) ⟨by decide +kernel, fun n hn => by
        have : n < 4 := hn
        interval_cases n <;> exact privWord_of 0x86000000 (by decide +kernel)⟩⟩,
    ⟨.st 2 atV0 .b32 (.global .sys), _, _, lab { addrWarp 1 with keys := labWarp.keys.set 0 { st := .closed, set := [{ op := 0 }] } } labWg labGrid,
      labCtx { addrWarp 1 with keys := labWarp.keys.set 0 { st := .closed, set := [{ op := 0 }] } }, rfl, lab_issues, by decide, by decide, by decide⟩⟩

theorem witness_ScalarMemoryIssues : ∃ i a off f s c, scalarMemOf i = some (a, off, f) ∧ Issues i s c ∧
    globalCause s c f (scalarAddr c.w a off) = none ∧ ¬mustProbe s c f (scalarAddr c.w a off) :=
  ⟨.sst 9 2 .b64 .pkg (some 0xFFF8), _, _, _, lab (addrWarp 1) labWg labGrid, labCtx (addrWarp 1), rfl, lab_issues, by decide +kernel,
    fun h => absurd h.2.2 (by decide +kernel)⟩

theorem lab_traps (w : Warp) (h : w.stack = [] ∧ w.spilled = 0 ∧ w.trapAt = none := by exact ⟨rfl, rfl, rfl⟩) : canTrap (lab w labWg labGrid) (labCtx w) :=
  ⟨(by decide : handler0 (labCtx labWarp) ≠ 0), unmasked_none h.2.2, by
    show w.stack.length + 1 ≤ 32 ∧ w.stack.length + w.spilled + 1 ≤ 40
    rw [h.1, h.2.1]; decide, fun o ho => by cases ho⟩

theorem witness_MemoryChecksTrap :
    (∃ i m f s c l, memOf i = some (m, f) ∧ f.space = .global ∧ Issues i s c ∧ canProduce c.w m.prod ∧ l ∈ actingLanes c.w m.grd ∧
      (∀ k ∈ actingLanes c.w m.grd, k < l → laneReady s c f m k) ∧ globalCause s c f (laneSumOf c.w m l) = some 0x13 ∧ canTrap s c) ∧
    (∃ i m f s c l, memOf i = some (m, f) ∧ f.space = .global ∧ Issues i s c ∧ canProduce c.w m.prod ∧ l ∈ actingLanes c.w m.grd ∧
      (∀ k ∈ actingLanes c.w m.grd, k < l → laneReady s c f m k) ∧ mustProbe s c f (laneSumOf c.w m l)) ∧
    (∃ i m f s c l, memOf i = some (m, f) ∧ f.space = .scratch ∧ Issues i s c ∧ canProduce c.w m.prod ∧ l ∈ actingLanes c.w m.grd ∧
      (∀ k ∈ actingLanes c.w m.grd, k < l → laneReady s c f m k) ∧ scratchCause c f (laneOffOf c.w m l) = some 0x14 ∧ canTrap s c) ∧
    (∃ i a off f s c, scalarMemOf i = some (a, off, f) ∧ Issues i s c ∧ globalCause s c f (scalarAddr c.w a off) = some 0x14 ∧ canTrap s c) ∧
    ∃ i a off f s c, scalarMemOf i = some (a, off, f) ∧ Issues i s c ∧ mustProbe s c f (scalarAddr c.w a off) :=
  ⟨⟨.ld 2 atV0 .b32 (.global .sys), _, _, lab (addrWarp 3) labWg labGrid, labCtx (addrWarp 3), 1, rfl, rfl, lab_issues,
      .inr ⟨by decide, by decide⟩, by decide +kernel, fun k _ h => by
        have : k = 0 := by omega
        subst this; exact ⟨by decide +kernel, fun h => absurd h.2.2 (by decide +kernel)⟩, by decide +kernel, lab_traps _⟩,
    ⟨.red 2 atV0 .fadd .wg, _, _, lab (addrWarp 4) labWg labGrid, labCtx (addrWarp 4), 2, rfl, rfl, lab_issues, .inr ⟨by decide, by decide⟩, by decide +kernel,
      fun k h => one_lane (P := fun k => k < 2 → _) (a := 2) (by decide +kernel) (fun h => absurd h (by decide)) k h, by decide +kernel, by decide +kernel, by decide +kernel⟩,
    ⟨.sts 2 atV0 .b128 .wg, _, _, lab (addrWarp 1) labWg labGrid, labCtx (addrWarp 1), 0, rfl, rfl, lab_issues, .inr ⟨by decide, by decide⟩, by decide +kernel,
      fun _ _ h => by omega, by decide +kernel, lab_traps _⟩,
    ⟨.sld 9 2 .b32 .wg (some 0xFFFEFFFC), _, _, _, lab (addrWarp 1) labWg labGrid, labCtx (addrWarp 1), rfl, lab_issues, by decide +kernel, lab_traps _⟩,
    ⟨.sld 9 2 .b32 .wg (some 0x10000), _, _, _, lab (addrWarp 1) labWg labGrid, labCtx (addrWarp 1), rfl, lab_issues, by decide +kernel, by decide +kernel, by decide +kernel⟩⟩


/-- A private access of lane 0 that fails: its offset, an address past the top, its page; and one whose second word's page is not probed. -/
theorem witness_MemoryChecksTrap_priv :
    (∃ i m f s c, memOf i = some (m, f) ∧ f.space = .priv ∧ Issues i s c ∧ canProduce c.w m.prod ∧ 0 ∈ actingLanes c.w m.grd ∧
      privCause c f (laneOffOf c.w m 0) = some 0x14 ∧ canTrap s c) ∧
    (∃ i m f s c, memOf i = some (m, f) ∧ f.space = .priv ∧ Issues i s c ∧ canProduce c.w m.prod ∧ 0 ∈ actingLanes c.w m.grd ∧
      privCause c f (laneOffOf c.w m 0) = none ∧ 2 ^ 52 ≤ privWordVa c (laneOffOf c.w m 0) 0 0 ∧ canTrap s c) ∧
    (∃ i m f s c w, memOf i = some (m, f) ∧ f.space = .priv ∧ Issues i s c ∧ canProduce c.w m.prod ∧ 0 ∈ actingLanes c.w m.grd ∧
      privCause c f (laneOffOf c.w m 0) = none ∧ privWordVa c (laneOffOf c.w m 0) 0 0 < 2 ^ 52 ∧ pageWord s c (privWordVa c (laneOffOf c.w m 0) 0 0) = some w ∧
      pageCause f w = some 0x11 ∧ canTrap s c) ∧
    ∃ i m f s c, memOf i = some (m, f) ∧ f.space = .priv ∧ Issues i s c ∧ canProduce c.w m.prod ∧ 0 ∈ actingLanes c.w m.grd ∧
      privCause c f (laneOffOf c.w m 0) = none ∧ 1 < privWords f ∧ privWordOk s c f (laneOffOf c.w m 0) 0 0 ∧ privWordVa c (laneOffOf c.w m 0) 0 1 < 2 ^ 52 ∧
      pageWord s c (privWordVa c (laneOffOf c.w m 0) 0 1) = none :=
  ⟨⟨.ld 4 atV0 .b64 .priv, _, _, lab (privWarp 0x3FC) labWg labGrid, labCtx (privWarp 0x3FC), rfl, rfl, lab_issues, .inr ⟨by decide, by decide⟩, by decide +kernel,
      by decide +kernel, lab_traps _⟩,
    ⟨.ld 4 atV0 .b32 .priv, _, _, lab (privWarp 8) labWg (privGrid (2 ^ 52 - 256)), { w := privWarp 8, g := labWg, gr := privGrid (2 ^ 52 - 256) }, rfl, rfl, lab_issues, .inr ⟨by decide, by decide⟩,
      by decide +kernel, by decide +kernel, by decide +kernel, canTrap_of⟩,
    ⟨.st 4 atV0 .b32 .priv, _, _, privLab (privWarp 0) 0x82000000, labCtx (privWarp 0), 0x82000000, rfl, rfl, lab_issues, .inr ⟨by decide, by decide⟩, by decide +kernel,
      by decide +kernel, by decide +kernel, by decide +kernel, by decide +kernel, canTrap_of⟩,
    ⟨.st 4 atV0 .b64 .priv, _, _, privLab (privWarp 0) 0x86000000 (privGrid 0x20FF80), { w := privWarp 0, g := labWg, gr := privGrid 0x20FF80 }, rfl, rfl, lab_issues, .inr ⟨by decide, by decide⟩, by decide +kernel, by decide +kernel, by decide,
      privWord_of 0x86000000 (by decide +kernel), by decide +kernel, by decide +kernel⟩⟩

/-- An operation of the lab's warp, with one access. -/
def labOp (act : MemAct) (st : Stage) : Op :=
  { kind := .mem act 2 4 false false, warp := 0, wg := 0, core := 0, pc := 0x10000, sc := .sys
    acc := [{ lane := 0, part := 0, space := .global, asid := 0, va := 0x10040, size := 4, write := act != .load, be := 15, data := 0x11223344, stage := st }] }

/-- The lab's warp with a key k0 that holds operation 0. -/
def keyWarp : Warp := { addrWarp 1 with keys := labWarp.keys.set 0 { st := .opened, set := [{ op := 0 }] } }

/-- The lab with one operation in flight. -/
def opLab (o : Op) : State := { lab keyWarp labWg labGrid with ops := [o] }

theorem witness_KeysAndWaits :
    (∃ s c, Issues (.kfork 14 0) s c ∧ (keySetOf c.w 0).length ≤ 4095 ∧ Issues (.kjoin 15 0 0) s c ∧ Issues (.krel 0) s c) ∧
    (∃ s c, Issues (.kwait 0 .sys) s c ∧ allPerformed s c (keySetOf c.w 0) .sys) ∧
    (∃ s c, Issues (.kwait 0 .sys) s c ∧ ¬allPerformed s c (keySetOf c.w 0) .sys) ∧
    (∃ s c, Issues (.kall .pkg) s c ∧ allPerformed (s.drainCore c.g.core) c ((List.range 15).flatMap fun k => keySetOf c.w k) .pkg) ∧
    ∃ s c, Issues (.kall .wg) s c ∧ ¬allPerformed (s.drainCore c.g.core) c ((List.range 15).flatMap fun k => keySetOf c.w k) .wg :=
  ⟨⟨opLab (labOp .store .done), labCtx keyWarp, lab_issues, by decide, lab_issues, lab_issues⟩,
    ⟨opLab (labOp .store .done), labCtx keyWarp, lab_issues, fun m h => by
      have : m = { op := 0 } := by simpa using (show m ∈ [({ op := 0 } : Member)] from h)
      subst this; rfl⟩,
    ⟨opLab (labOp .store .wcb), labCtx keyWarp, lab_issues, fun h => absurd (h { op := 0 } (by decide)) (by decide)⟩,
    ⟨lab labWarp labWg labGrid, labCtx labWarp, lab_issues, fun m h => absurd (show m ∈ ([] : List Member) from h) (by simp)⟩,
    ⟨opLab (labOp .load .held), labCtx keyWarp, lab_issues, fun h => absurd (h { op := 0 } (by decide)) (by decide)⟩⟩

/-- The lab's warp with words in its scalar registers, from s0 up. -/
def scalars (ws : List Word) : Warp := { labWarp with s := ws ++ List.replicate (64 - ws.length) 0 }

/-- A splice in the lab's receive queue, its key k0 open. -/
def spliceWarp : Warp := { keyWarp with recvq := [{ set := [{ op := 0 }], sc := .die, tag := 7 }] }

def heldSplice : Msg :=
  { body := .splice [] 0, op := none, warp := some 0, asid := 0, die := 0, tgt := 0, tgthi := 0, sc := .sys }

theorem witness_SplicesAtIssue :
    (∃ s c, Issues (.ksend 15 0 .sys) s c ∧ 64 ≤ s.spliceStore (coreDie c.g.core)) ∧
    (∃ s c, Issues (.ksend 0 4 .wg) s c ∧ s.spliceStore (coreDie c.g.core) < 64 ∧
      s.senderReason c false (c.w.sreg 4) (c.w.sreg 5) .wg = none ∧ (keySetOf c.w 0)[0]? = some { op := 0 }) ∧
    (∃ s c, Issues (.ksend 0 4 .wg) s c ∧ s.spliceStore (coreDie c.g.core) < 64 ∧ bitsAt (c.w.sreg 5) 0 20 ≠ c.gr.lrec.gridNo ∧
      c.gr.lrec.ngrid ≤ bitsAt (c.w.sreg 5) 0 20) ∧
    (∃ s c q rest, Issues (.krecv 0 8) s c ∧ c.w.Shaped ∧ c.w.recvq = q :: rest ∧ q.set.length ≤ 4095 ∧
      (c.w.sreg 8).toNat % 2 ^ 15 = 0 ∧ (c.w.keys.getD 1 {}).st = .idle ∧ (c.w.keys.getD 0 {}).st ≠ .idle) ∧
    ∃ s c, Issues (.krecvTry 63 8) s c ∧ c.w.Shaped ∧ c.w.recvq = [] :=
  ⟨⟨{ lab keyWarp labWg labGrid with msgs := List.replicate 64 heldSplice }, labCtx keyWarp, lab_issues, by decide +kernel⟩,
    ⟨opLab (labOp .store .wcb), labCtx keyWarp, lab_issues, by decide, by rfl, rfl⟩,
    ⟨lab (scalars [0, 0, 0, 0, 0, 1]) labWg labGrid, labCtx (scalars [0, 0, 0, 0, 0, 1]), lab_issues, by decide, by decide, by decide⟩,
    ⟨lab spliceWarp labWg labGrid, labCtx spliceWarp, _, _, lab_issues, by simp [Warp.Shaped, labCtx, spliceWarp, keyWarp, addrWarp, labWarp, Warp.fresh],
      rfl, by decide, by decide, rfl, by decide⟩,
    ⟨lab labWarp labWg labGrid, labCtx labWarp, lab_issues, labWarp_shaped, rfl⟩⟩

/-- The lab's workgroup with barrier 0 set. -/
def barWg (b : Barrier) : Workgroup := { labWg with bars := labWg.bars.set 0 b }

theorem witness_Barriers :
    (∃ s c, Issues (.binit 15 63) s c) ∧
    (∃ s c, Issues (.barr 0 0) s c ∧ 0 < c.g.bars.length ∧ (c.g.bars.getD 0 {}).members ≠ 0 ∧
      (c.g.bars.getD 0 {}).arrived + 1 = (c.g.bars.getD 0 {}).members) ∧
    (∃ s c, Issues (.barrLeave 0 0) s c ∧ (c.g.bars.getD 0 {}).members = 0 ∧ canTrap s c) ∧
    (∃ s c, Issues (.bwait 0 15 true) s c ∧ decide ((c.g.bars.getD 0 {}).phase % 2 = 1) = true) ∧
    ∃ s c, Issues (.bwait 0 14 true) s c ∧ decide ((c.g.bars.getD 0 {}).phase % 2 = 1) ≠ true :=
  ⟨⟨lab labWarp labWg labGrid, labCtx labWarp, lab_issues⟩,
    ⟨lab labWarp (barWg { members := 2, arrived := 1, phase := 65535 }) labGrid, { w := labWarp, g := barWg { members := 2, arrived := 1, phase := 65535 }, gr := labGrid }, lab_issues, by decide, by decide, by decide⟩,
    ⟨lab labWarp labWg labGrid, labCtx labWarp, lab_issues, by decide, lab_traps _⟩,
    ⟨lab labWarp (barWg { members := 2, phase := 65535 }) labGrid, { w := labWarp, g := barWg { members := 2, phase := 65535 }, gr := labGrid }, lab_issues, by decide⟩,
    ⟨lab labWarp labWg labGrid, labCtx labWarp, lab_issues, by decide⟩⟩

/-- The lab's grid with a member in its pool 0. -/
def poolGrid (ms : List PoolMember) : Grid := { labGrid with pools := labGrid.pools.set 0 { members := ms } }

theorem witness_PoolMembership :
    (∃ s c, Issues (.mcjoin 0 1 2 0) s c ∧ (∃ m ∈ (c.gr.pools.getD 0 {}).members, m.wg = c.w.wg)) ∧
    (∃ s c, Issues (.mcjoin 0 1 2 0) s c ∧ (¬∃ m ∈ (c.gr.pools.getD 0 {}).members, m.wg = c.w.wg) ∧ bitsAt (c.w.sreg 1) 16 14 = 0) ∧
    (∃ s c, Issues (.mcjoin 0 1 2 0) s c ∧ (¬∃ m ∈ (c.gr.pools.getD 0 {}).members, m.wg = c.w.wg) ∧ c.w.sreg 1 = 0x02000000 ∧
      64 ≤ (c.gr.pools.getD 0 {}).members.length) ∧
    (∃ s c, Issues (.mcjoin 0 1 2 0) s c ∧ 0 < c.gr.pools.length ∧ (¬∃ m ∈ (c.gr.pools.getD 0 {}).members, m.wg = c.w.wg) ∧
      c.w.sreg 1 = 0x02000000 ∧ ¬c.gr.lrec.scr * 65536 < (bitsAt (c.w.sreg 1) 0 14 + bitsAt (c.w.sreg 1) 16 14) * 128 ∧
      (c.gr.pools.getD 0 {}).members.length < 64) ∧
    (∃ s c, Issues (.mcleave 63 15) s c ∧ ¬∃ m ∈ (c.gr.pools.getD 15 {}).members, m.wg = c.w.wg) ∧
    ∃ s c m, Issues (.mcleave 63 0) s c ∧ c.w.Shaped ∧ m ∈ (c.gr.pools.getD 0 {}).members ∧ m.wg = c.w.wg ∧ (∃ h ∈ s.holds, h.grid = c.g.grid ∧ h.pool = 0 ∧
      h.isOpen = true ∧ h.free = false) :=
  ⟨⟨lab labWarp labWg (poolGrid [{ wg := 0, base := 0, size := 1, tmo := 1 }]), { w := labWarp, g := labWg, gr := poolGrid [{ wg := 0, base := 0, size := 1, tmo := 1 }] }, lab_issues, by decide⟩,
    ⟨lab labWarp labWg labGrid, labCtx labWarp, lab_issues, by decide, by decide⟩,
    ⟨lab (scalars [0, 0x02000000]) labWg (poolGrid (List.replicate 64 { wg := 1, base := 0, size := 1, tmo := 1 })), { w := scalars [0, 0x02000000], g := labWg, gr := poolGrid (List.replicate 64 { wg := 1, base := 0, size := 1, tmo := 1 }) }, lab_issues, by decide +kernel,
      by decide, by decide +kernel⟩,
    ⟨lab (scalars [0, 0x02000000]) labWg labGrid, labCtx (scalars [0, 0x02000000]), lab_issues, by decide, by decide, by decide, by decide, by decide⟩,
    ⟨lab labWarp labWg labGrid, labCtx labWarp, lab_issues, by decide⟩,
    ⟨{ lab labWarp labWg (poolGrid [{ wg := 0, base := 0, size := 1, tmo := 1 }]) with
        holds := [{ die := 0, slice := 0, grid := 0, pool := 0, va := 0x10000, nlines := 2, isOpen := true, awaited := [0, 1], included := [], tmo := 10 }] },
      { w := labWarp, g := labWg, gr := poolGrid [{ wg := 0, base := 0, size := 1, tmo := 1 }] }, { wg := 0, base := 0, size := 1, tmo := 1 }, lab_issues, labWarp_shaped,
      by decide +kernel, rfl, _, List.mem_cons_self, rfl, rfl, rfl, rfl⟩⟩

/-- A workgroup in which a warp waits to grow to descriptor 1. -/
def growWg : Workgroup := { labWg with growQ := [{ warp := 1, desc := 1, pd := 7 }] }

/-- Descriptor 1 of the lab's record, and a grid whose workgroups hold no register granules. -/
def labDesc : Desc := { role := .vector, cls := 1, allot := 24, count := 0, entry := 0x10080 }

def tightGrid : Grid := { labGrid with lrec := { labRecord with reg := 0 } }

theorem witness_Roles :
    (∃ (s : State) (c : Ctx) (ds : Desc), Issues (.role 7 1) s c ∧ c.gr.lrec.descs[1]? = some ds ∧ c.w.Shaped ∧ c.w.emask = BitVec.allOnes 32 ∧ c.w.stack = [] ∧ c.w.spilled = 0 ∧
      c.w.allot < ds.allot ∧ c.g.growQ = [] ∧ ds.allot - c.w.allot ≤ freeRegs s c.w.wg c.gr.lrec) ∧
    (∃ (s : State) (c : Ctx) (ds : Desc), Issues (.role 0 1) s c ∧ c.gr.lrec.descs[1]? = some ds ∧ c.w.Shaped ∧ c.w.emask = BitVec.allOnes 32 ∧ c.w.stack = [] ∧ c.w.spilled = 0 ∧
      c.w.allot < ds.allot ∧ c.g.growQ ≠ [] ∧ ∀ q ∈ c.g.growQ, q.warp ≠ s.cur) ∧
    (∃ (s : State) (c : Ctx), Issues (.role 0 0) s c ∧ c.w.emask ≠ BitVec.allOnes 32 ∧ canTrap s c) ∧
    (∃ (s : State) (g : Workgroup) (q : GrowReq) (rest : List GrowReq) (w : Warp) (gr : Grid) (ds : Desc), s.wgs[0]? = some g ∧ g.growQ = q :: rest ∧ s.warps[q.warp]? = some w ∧ s.grids[g.grid]? = some gr ∧
      gr.lrec.descs[q.desc]? = some ds ∧ w.Shaped ∧ ds.allot - w.allot ≤ freeRegs s 0 gr.lrec) ∧
    ∃ (s : State) (g : Workgroup) (q : GrowReq) (rest : List GrowReq) (w : Warp) (gr : Grid) (ds : Desc), s.wgs[0]? = some g ∧ g.growQ = q :: rest ∧ s.warps[q.warp]? = some w ∧ s.grids[g.grid]? = some gr ∧
      gr.lrec.descs[q.desc]? = some ds ∧ w.Shaped ∧ freeRegs s 0 gr.lrec < ds.allot - w.allot ∧
      ∀ k x, s.warps[k]? = some x → x.wg = 0 → x.status = .running → ∃ y ∈ g.growQ, y.warp = k := by
  refine ⟨⟨lab labWarp labWg labGrid, labCtx labWarp, labDesc, lab_issues, by decide +kernel, labWarp_shaped, by decide, by decide, rfl, by decide, by decide, by decide⟩,
    ⟨lab labWarp growWg labGrid, { w := labWarp, g := growWg, gr := labGrid }, labDesc, lab_issues, by decide +kernel, labWarp_shaped, by decide, by decide, rfl, by decide, by decide, by decide⟩,
    ⟨lab (addrWarp 1) labWg labGrid, labCtx (addrWarp 1), lab_issues, by decide, lab_traps _⟩,
    ⟨lab labWarp growWg labGrid, growWg, { warp := 1, desc := 1, pd := 7 }, [], { labWarp with num := 1, slot := 1 }, labGrid, labDesc, by decide +kernel, rfl, by decide +kernel, by decide +kernel, by decide +kernel, ?_, by decide⟩,
    ⟨lab { labWarp with allot := 60, status := .ended } growWg tightGrid, growWg, { warp := 1, desc := 1, pd := 7 }, [], { labWarp with num := 1, slot := 1 }, tightGrid, labDesc,
      by decide +kernel, rfl, by decide +kernel, by decide +kernel, by decide +kernel,
      ?_, by decide, ?_⟩⟩
  · simp [Warp.Shaped, labWarp, Warp.fresh]
  · simp [Warp.Shaped, labWarp, Warp.fresh]
  · intro k x h1 h2 h3
    match k with
    | 0 => rw [lab_warps] at h1; simp at h1; subst h1; simp at h3
    | 1 => exact ⟨_, List.mem_cons_self, rfl⟩
    | k + 2 => rw [lab_warps] at h1; simp at h1

/-! ### The network, engines, promotion -/

/-- s4: control words of NRED: .die with COUNT 2; COUNT 0; a reserved bit. -/
theorem witness_NetworkOperationsIssue :
    (∃ s c, Issues (.mcld 0 4 15 14 15 (some 0x80000000)) s c ∧ canProduce c.w 14) ∧
    (∃ s c, Issues (.amsend 2 4 0 0 15) s c ∧ canProduce c.w 0 ∧
      s.senderReason c true (c.w.sreg 2) (c.w.sreg 3) (scopeOr .sys (bitsAt (c.w.sreg 3) 28 3)) = none) ∧
    (∃ s c, Issues (.amsend 2 4 0 15 15) s c ∧ canProduce c.w 15 ∧ bitsAt (c.w.sreg 3) 0 20 ≠ c.gr.lrec.gridNo ∧
      c.gr.lrec.ngrid ≤ bitsAt (c.w.sreg 3) 0 20) ∧
    (∃ s c, Issues (.nred 2 4 .addI64 0 15 none) s c ∧ canProduce c.w 0 ∧ bitsAt (c.w.sreg 4) 24 8 = 0 ∧ (c.w.sreg 4).getLsbD 19 = false ∧
      bitsAt (c.w.sreg 4) 16 3 = 3 ∧ bitsAt (c.w.sreg 4) 0 16 ≠ 0) ∧
    (∃ s c, Issues (.nred 2 4 .addI64 0 15 none) s c ∧ canProduce c.w 0 ∧ bitsAt (c.w.sreg 4) 24 8 = 0 ∧ (c.w.sreg 4).getLsbD 19 = false ∧
      bitsAt (c.w.sreg 4) 16 3 = 4 ∧ bitsAt (c.w.sreg 4) 0 16 ≠ 0 ∧ c.w.sPsn.getLsbD 3 = true) ∧
    (∃ s c, Issues (.nred 2 4 .addI32 0 15 none) s c ∧ canProduce c.w 0 ∧ c.w.Shaped ∧ bitsAt (c.w.sreg 4) 16 3 = 4 ∧ bitsAt (c.w.sreg 4) 0 16 = 0) ∧
    (∃ s c, Issues (.nred 2 4 .addI32 0 15 none) s c ∧ canProduce c.w 0 ∧ c.w.Shaped ∧ bitsAt (c.w.sreg 4) 24 8 ≠ 0) ∧
    (∃ s c, Issues (.launch 62 .sys 0 15) s c ∧ canProduce c.w 0 ∧ c.g.launchQ.length < 4) ∧
    (∃ s c, Issues (.launch 62 .sys 0 15) s c ∧ canProduce c.w 0 ∧ 4 ≤ c.g.launchQ.length) ∧
    ∃ s c, Issues (.time 62) s c :=
  ⟨⟨lab labWarp labWg labGrid, labCtx labWarp, lab_issues, .inr ⟨by decide, by decide⟩⟩,
    ⟨lab (scalars [0, 0, 0, 0x30000000]) labWg labGrid, labCtx (scalars [0, 0, 0, 0x30000000]), lab_issues, .inr ⟨by decide, by decide⟩, by rfl⟩,
    ⟨lab (scalars [0, 0, 0, 1]) labWg labGrid, labCtx (scalars [0, 0, 0, 1]), lab_issues, .inl rfl, by decide, by decide⟩,
    ⟨lab (scalars [0, 0, 0, 0, 0x00030002]) labWg labGrid, labCtx (scalars [0, 0, 0, 0, 0x00030002]), lab_issues, .inr ⟨by decide, by decide⟩, by decide, by decide, by decide, by decide⟩,
    ⟨lab { scalars [0, 0, 0, 0, 0x00040002] with sPsn := 8 } labWg labGrid, labCtx { scalars [0, 0, 0, 0, 0x00040002] with sPsn := 8 }, lab_issues,
      .inr ⟨by decide, by decide⟩, by decide, by decide, by decide, by decide, by decide⟩,
    ⟨lab (scalars [0, 0, 0, 0, 0x00040000]) labWg labGrid, labCtx (scalars [0, 0, 0, 0, 0x00040000]), lab_issues, .inr ⟨by decide, by decide⟩,
      by simp [Warp.Shaped, labCtx, scalars, labWarp, Warp.fresh], by decide, by decide⟩,
    ⟨lab (scalars [0, 0, 0, 0, 0x01040001]) labWg labGrid, labCtx (scalars [0, 0, 0, 0, 0x01040001]), lab_issues, .inr ⟨by decide, by decide⟩,
      by simp [Warp.Shaped, labCtx, scalars, labWarp, Warp.fresh], by decide⟩,
    ⟨lab labWarp labWg labGrid, labCtx labWarp, lab_issues, .inr ⟨by decide, by decide⟩, by decide⟩,
    ⟨lab labWarp { labWg with launchQ := List.replicate 4 { addr := 0, op := 0 } } labGrid, { w := labWarp, g := { labWg with launchQ := List.replicate 4 { addr := 0, op := 0 } }, gr := labGrid }, lab_issues, .inr ⟨by decide, by decide⟩, by decide⟩,
    ⟨lab labWarp labWg labGrid, labCtx labWarp, lab_issues⟩⟩

/-- An engine command of the lab's warp in its queue. -/
def cmdOp (c : Cmd) (st : OpStatus) : Op := { kind := .cmd c, warp := 0, wg := 0, core := 0, pc := 0x10000, sc := .wg, status := st }

theorem witness_EngineCommandsIssue :
    (∃ i k cn n cmd s c, matrixOf i = some (k, cn, n, cmd) ∧ Issues i s c ∧ c.w.emask = BitVec.allOnes 32 ∧ canProduce c.w k ∧
      queuedOn s c.g.core false < 32) ∧
    (∃ i k cn n cmd s c, matrixOf i = some (k, cn, n, cmd) ∧ Issues i s c ∧ c.w.emask = BitVec.allOnes 32 ∧ canProduce c.w k ∧
      32 ≤ queuedOn s c.g.core false) ∧
    (∃ i k cn n cmd s c, matrixOf i = some (k, cn, n, cmd) ∧ Issues i s c ∧ c.w.emask ≠ BitVec.allOnes 32 ∧ canTrap s c) ∧
    (∃ i k cn n kind x y off gp s c, copyOf i = some (k, cn, n, kind, x, y, off, gp) ∧ Issues i s c ∧ canProduce c.w k ∧ queuedOn s c.g.core true < 64) ∧
    ∃ i k cn n kind x y off gp s c, copyOf i = some (k, cn, n, kind, x, y, off, gp) ∧ Issues i s c ∧ canProduce c.w k ∧ 64 ≤ queuedOn s c.g.core true :=
  ⟨⟨.mma 15 0 14 0 15 (some 3), _, _, _, _, { lab labWarp labWg labGrid with ops := List.replicate 31 (cmdOp (.tzero 0) .issued) }, labCtx labWarp, rfl,
      lab_issues, rfl, .inr ⟨by decide, by decide⟩, by decide +kernel⟩,
    ⟨.cst 3 63 15 15, _, _, _, _, { lab labWarp labWg labGrid with ops := List.replicate 32 (cmdOp (.tzero 0) .started) }, labCtx labWarp, rfl,
      lab_issues, rfl, .inl rfl, by decide +kernel⟩,
    ⟨.tcfg 0 0 0 15, _, _, _, _, lab (addrWarp 1) labWg labGrid, labCtx (addrWarp 1), rfl, lab_issues, by decide, lab_traps _⟩,
    ⟨.cpysSt 62 60 0 15 0, _, _, _, _, _, _, _, _, lab (addrWarp 1) labWg labGrid, labCtx (addrWarp 1), rfl, lab_issues, .inr ⟨by decide, by decide⟩,
      by decide⟩,
    ⟨.cpyx 0 4 0 15 none, _, _, _, _, _, _, _, _, { lab labWarp labWg labGrid with ops := List.replicate 64 (cmdOp (.copy .x (copyArgs labWarp 0 4 none 0)) .issued) },
      labCtx labWarp, rfl, lab_issues, .inr ⟨by decide, by decide⟩, by decide +kernel⟩⟩

/-- A promotion of workgroup 0's stores on its way, beside a store. -/
def stealOp : Op := { kind := .steal (some 0) [], warp := 0, wg := 0, core := 0, pc := 0x10000, sc := .die }

def stealLab (g : Workgroup) : State :=
  { lab labWarp g labGrid with
    ops := [labOp .store .wcb, stealOp] }

theorem witness_StealPromotes :
    (∃ (s : State) (c : Ctx) (j : Nat), Issues (.ksteal 0 0 .die) s c ∧ canProduce c.w 0 ∧ s.victim c (c.w.sreg 0) .die = .ok j) ∧
    (∃ (s : State) (c : Ctx), Issues (.ksteal 0 0 .die) s c ∧ canProduce c.w 0 ∧ bitsAt (c.w.sreg 0) 16 16 ≠ 0) ∧
    (∃ (s : State) (o : Op) (v : Nat) (g : Workgroup), s.ops[1]? = some o ∧ o.kind = .steal (some v) [] ∧ o.status = .issued ∧ s.wgs[v]? = some g ∧ g.status ≠ .evicted ∧ g.started = true) ∧
    ∃ (s : State) (o : Op) (v : Nat) (g : Workgroup), s.ops[1]? = some o ∧ o.kind = .steal (some v) [] ∧ o.status = .issued ∧ s.wgs[v]? = some g ∧ g.status ≠ .evicted ∧ g.started = false :=
  ⟨⟨lab labWarp labWg labGrid, labCtx labWarp, 0, lab_issues, .inr ⟨by decide, by decide⟩, by rfl⟩,
    ⟨lab (scalars [0x10000]) labWg labGrid, labCtx (scalars [0x10000]), lab_issues, .inr ⟨by decide, by decide⟩, by decide⟩,
    ⟨stealLab { labWg with started := true }, stealOp, 0, { labWg with started := true }, by decide +kernel, rfl, rfl, by decide +kernel, by decide, rfl⟩,
    ⟨stealLab labWg, stealOp, 0, labWg, by decide +kernel, rfl, rfl, by decide +kernel, by decide, rfl⟩⟩

/-! ### Steps of the memory -/

theorem labMem_wf : Memory.wf (codePage [] 0) = true := by decide +kernel

/-- The held access of the lab's operations, and an operation with it changed. -/
def labAcc (act : MemAct) : Access :=
  { lane := 0, part := 0, space := .global, asid := 0, va := 0x10040, size := 4, write := act != .load, be := 15, data := 0x11223344 }
def opWith (act : MemAct) (x : Access) : Op := { labOp act .held with acc := [x] }

theorem op_access {s : State} {act : MemAct} {x : Access} (h : s.ops[0]? = some (opWith act x) := by rfl) : MemAccess s 0 0 (opWith act x) x act :=
  ⟨h, rfl, 2, 4, false, false, rfl⟩

theorem op_free {s : State} {act : MemAct} {x : Access} : goesFreely s 0 (opWith act x) := ⟨rfl, by simp⟩

/-- What holds of the one operation and its one access holds of all. -/
theorem only_op {s : State} {act : MemAct} {x : Access} {P : Op → Access → Prop} (hP : P (opWith act x) x) (h : s.ops = [opWith act x] := by rfl) :
    ∀ p ∈ s.ops, ∀ b ∈ p.acc, P p b := by
  intro p hp b hb
  rw [h, List.mem_singleton] at hp; subst hp
  rw [show (opWith act x).acc = [x] from rfl, List.mem_singleton] at hb; subst hb; exact hP

theorem only_oldest {s : State} {act : MemAct} {x : Access} {cores : Nat → Prop} {st : List Stage} (h : s.ops = [opWith act x] := by rfl) : oldest s cores st x :=
  fun p hp _ b hb _ => only_op (P := fun _ b => x.stamp ≤ b.stamp) (Nat.le_refl _) h p hp b hb

theorem only_noStores {s : State} {act : MemAct} {x : Access} {cores : Nat → Prop} {st : List Stage} (h : s.ops = [opWith act x] := by rfl) (hx : x.stage ∉ st := by decide) :
    noStoresAt s cores st := fun p hp _ b hb _ => only_op (P := fun _ b => b.stage ∉ st) hx h p hp b hb

theorem only_noStores_of {s : State} {act : MemAct} {x : Access} {cores : Nat → Prop} {st : List Stage} (h : s.ops = [opWith act x] := by rfl) (hx : x.write = false := by rfl) :
    noStoresAt s cores st := fun p hp _ b hb hw => absurd (only_op (P := fun _ b => b.write = false) hx h p hp b hb) (by rw [hw]; decide)

/-- The lab with one access in flight. -/
def accLab (act : MemAct) (x : Access) : State := opLab (opWith act x)

/-- Page 0x20000 as an alias of page 0x10000, open or closed to stores. -/
def aliasMem (w0 : Nat) : Bytes := Memory.setN (Memory.setN (codePage [] 0) 0x20020 8 w0) 0x20028 8 1
def viaAlias (act : MemAct) : Access := { labAcc act with va := 0x20040, isAlias := true }
def aliasLab (act : MemAct) (w0 : Nat) : State := { accLab act (viaAlias act) with mem := aliasMem w0 }

/-- A line of zeros that holds the lab's sector. -/
def labLine : Line := { asid := 0, line := 0x10040 / 128, grain := 1, valid := 15, data := 0 }
def cachedLab (x : Access) (l1 cache : List Line) : State :=
  { accLab .load x with cores := { Core.mk0 with l1 := l1 } :: List.replicate 767 Core.mk0, clusters := { Cluster.mk0 with cache := cache } :: List.replicate 63 Cluster.mk0 }

/-- A load of two lanes back at its core. -/
def backOp : Op :=
  { labOp .load .done with kind := .mem .load 2 1 true false
                           acc := (labOp .load .done).acc.map fun x => { x with size := 1, data := 0x80 } }

/-- An access waits for its snapshot; scratchpad and private accesses act; a store enters the buffer. -/
theorem witness_LoadsAndStoresReachHome :
    (∃ s i j o x act, MemAccess s i j o x act ∧ x.stage = .held ∧ ∃ m ∈ o.snap, s.memberAt (coreDie o.core) m o.sc = false) ∧
    (∃ s i j o x g, MemAccess s i j o x .store ∧ x.space = .scratch ∧ x.stage = .held ∧ x.write = true ∧ goesFreely s i o ∧ s.wgs[o.wg]? = some g ∧
      Memory.wf g.scratch = true) ∧
    (∃ s i j o x g, MemAccess s i j o x .load ∧ x.space = .scratch ∧ x.stage = .held ∧ x.write = false ∧ goesFreely s i o ∧ s.wgs[o.wg]? = some g) ∧
    (∃ s i j o x g, MemAccess s i j o x .store ∧ x.space = .priv ∧ x.isAlias = false ∧ x.stage = .held ∧ x.write = true ∧ goesFreely s i o ∧
      s.wgs[o.wg]? = some g ∧ g.core < s.cores.length ∧ x.va % 4 + x.size ≤ 4 ∧ s.privRoom g.core x.asid x.va = true) ∧
    (∃ s i j o x g, MemAccess s i j o x .load ∧ x.space = .priv ∧ x.isAlias = false ∧ x.stage = .held ∧ x.write = false ∧ goesFreely s i o ∧
      s.wgs[o.wg]? = some g ∧ x.size ≤ 16) ∧
    (∃ s i j o x, MemAccess s i j o x .store ∧ x.space = .global ∧ x.isAlias = false ∧ x.stage = .held ∧ goesFreely s i o ∧
      ∀ p ∈ s.ops, p.core = o.core → ∀ b ∈ p.acc, b.stage ≠ .wcb) ∧
    (∃ s i j o x, MemAccess s i j o x .store ∧ x.space = .global ∧ x.isAlias = false ∧ x.stage = .drained ∧ oldest s (· = o.core) [.wcb, .drained] x ∧
      ∀ p ∈ s.ops, p.core = o.core → ∀ b ∈ p.acc, b.stage = .drained → b.first = false) ∧
    (∃ s i j o x, MemAccess s i j o x .store ∧ x.stage = .drained ∧ oldest s (· = o.core) [.wcb, .drained] x ∧ x.first = true) :=
  ⟨⟨{ lab keyWarp labWg labGrid with ops := [{ opWith .load (labAcc .load) with snap := [{ op := 1 }] }, labOp .store .wcb] }, 0, 0, _, labAcc .load, .load,
      ⟨rfl, rfl, 2, 4, false, false, rfl⟩, rfl, { op := 1 }, by decide, by decide +kernel⟩,
    ⟨accLab .store { labAcc .store with space := .scratch, va := 0x40 }, 0, 0, _, _, labWg, op_access, rfl, rfl, rfl, op_free, rfl, by decide⟩,
    ⟨accLab .load { labAcc .load with space := .scratch, va := 0x40 }, 0, 0, _, _, labWg, op_access, rfl, rfl, rfl, op_free, rfl⟩,
    ⟨accLab .store { labAcc .store with space := .priv, va := 0x200000 }, 0, 0, _, _, labWg, op_access, rfl, rfl, rfl, rfl, op_free, rfl, by decide +kernel, by decide,
      by decide +kernel⟩,
    ⟨accLab .load { labAcc .load with space := .priv, va := 0x200000 }, 0, 0, _, _, labWg, op_access, rfl, rfl, rfl, rfl, op_free, rfl, by decide⟩,
    ⟨accLab .store (labAcc .store), 0, 0, _, _, op_access, rfl, rfl, rfl, op_free, fun p hp _ b hb => only_op (P := fun _ b => b.stage ≠ .wcb) (by decide) rfl p hp b hb⟩,
    ⟨accLab .store { labAcc .store with stage := .drained }, 0, 0, _, _, op_access, rfl, rfl, rfl, only_oldest,
      fun p hp _ b hb _ => only_op (P := fun _ b => b.first = false) (by decide) rfl p hp b hb⟩,
    ⟨accLab .store { labAcc .store with stage := .drained, first := true }, 0, 0, _, _, op_access, rfl, only_oldest, rfl⟩⟩

/-- Loads: from the L1, from the cluster cache, on to home, at home; a store at home. -/
theorem witness_LoadsAndStoresReachHome_home :
    (∃ s i o d z sg x, ∃ bs : Nat → Byte, s.ops[i]? = some o ∧ o.kind = .mem .load d z sg false ∧ o.aux = [] ∧ o.status = .issued ∧ o.acc = [x] ∧ x.stage = .held ∧
      x.space = .global ∧ x.isAlias = false ∧ x.late = false ∧ x.size ≤ 16 ∧ goesFreely s i o ∧ mayHit o x ∧ noStoresAt s (· = o.core) [.wcb, .drained] ∧
      ∀ b, b < x.size → cacheByte (s.core o.core).l1 x.asid (x.va + b) = some (bs b, false)) ∧
    (∃ s i j o x, ∃ bs : Nat → Byte, MemAccess s i j o x .load ∧ x.space = .global ∧ x.isAlias = false ∧ x.stage = .held ∧ x.size ≤ 16 ∧ goesFreely s i o ∧ mayHit o x ∧
      noStoresAt s (· = o.core) [.wcb, .drained] ∧ ∀ b, b < x.size → cacheByte (s.cluster (coreCl o.core)).cache x.asid (x.va + b) = some (bs b, false)) ∧
    (∃ s i j o x, MemAccess s i j o x .load ∧ x.space = .global ∧ x.isAlias = false ∧ x.stage = .held ∧ goesFreely s i o ∧ ¬mayHit o x) ∧
    (∃ s i j o x, MemAccess s i j o x .load ∧ x.space = .global ∧ x.isAlias = false ∧ x.stage = .held ∧ goesFreely s i o ∧
      noStoresAt s (· = o.core) [.wcb, .drained] ∧ ∃ b, b < x.size ∧ cacheByte (s.cluster (coreCl o.core)).cache x.asid (x.va + b) = none) ∧
    (∃ s i j o x key asid va, s.MemOk ∧ MemAccess s i j o x .store ∧ x.space = .global ∧ x.isAlias = false ∧ x.stage = .atCl ∧ s.noCounter i x = false ∧
      oldest s (fun k => coreCl k = coreCl o.core) [.wcb, .drained, .atCl] x ∧ s.place x.asid x.va = .here key asid va ∧ clearWay s (coreDie o.core) (homeDie va)) ∧
    (∃ s i j o x key asid va, MemAccess s i j o x .load ∧ x.space = .global ∧ x.stage = .atCl ∧ x.isAlias = false ∧ s.noCounter i x = false ∧ mayHit o x ∧
      s.place x.asid x.va = .here key asid va ∧ clearWay s (coreDie o.core) (homeDie va) ∧ noStoresAt s (fun k => coreCl k = coreCl o.core) [.wcb, .drained, .atCl] ∧
      ∀ b, b < x.size → s.place x.asid (x.va + b) = .here (key + b) asid (va + b)) :=
  ⟨⟨cachedLab (labAcc .load) [labLine] [], 0, opWith .load (labAcc .load), 2, 4, false, _, fun _ => 0, rfl, rfl, rfl, rfl, rfl, rfl, rfl, rfl, rfl, by decide, op_free,
      .inr (by decide), only_noStores, by decide +kernel⟩,
    ⟨cachedLab (labAcc .load) [] [labLine], 0, 0, _, _, fun _ => 0, op_access, rfl, rfl, rfl, by decide, op_free, .inr (by decide), only_noStores, by decide +kernel⟩,
    ⟨accLab .load { labAcc .load with va := 2 ^ 50 }, 0, 0, _, _, op_access, rfl, rfl, rfl, op_free, fun h => h.elim (by decide) (by decide)⟩,
    ⟨accLab .load (labAcc .load), 0, 0, _, _, op_access, rfl, rfl, rfl, op_free, only_noStores, 0, by decide, by decide +kernel⟩,
    ⟨accLab .store { labAcc .store with stage := .atCl }, 0, 0, _, _, 0x30040, 0, 0x10040, labMem_wf, op_access, rfl, rfl, rfl, by decide +kernel, only_oldest, by decide +kernel,
      by decide +kernel, by decide +kernel⟩,
    ⟨accLab .load { labAcc .load with stage := .atCl }, 0, 0, _, _, 0x30040, 0, 0x10040, op_access, rfl, rfl, rfl, by decide +kernel, .inr (by decide), by decide +kernel,
      ⟨by decide +kernel, by decide +kernel⟩, only_noStores_of, by decide +kernel⟩⟩

/-- Alias accesses, with and without their permission; responses; a load's end. -/
theorem witness_LoadsAndStoresReachHome_ends :
    (∀ act, act = .store ∨ act = .load → ∃ s i j o x key asid va, s.MemOk ∧ MemAccess s i j o x act ∧ x.space = .global ∧ x.isAlias = true ∧ x.stage = .held ∧
      goesFreely s i o ∧ s.noCounter i x = false ∧ s.place x.asid x.va = .here key asid va ∧ clearWay s (coreDie o.core) (homeDie x.va) ∧
      clearWay s (homeDie x.va) (homeDie va) ∧ pageAllows (s.probeWord x.asid x.va) (act == .store)) ∧
    (∃ s i j o x key asid va, s.MemOk ∧ MemAccess s i j o x .store ∧ x.space = .global ∧ x.isAlias = true ∧ x.stage = .held ∧ goesFreely s i o ∧
      s.noCounter i x = false ∧ s.place x.asid x.va = .here key asid va ∧ clearWay s (coreDie o.core) (homeDie x.va) ∧ clearWay s (homeDie x.va) (homeDie va) ∧
      ¬pageAllows (s.probeWord x.asid x.va) true) ∧
    (∃ s i j o x, MemAccess s i j o x .load ∧ x.stage = .fetched ∧ s.linkHeld (homeDie x.va) (coreDie o.core) = false) ∧
    (∃ s i j o x, MemAccess s i j o x .cas ∧ x.stage = .fetched ∧ s.linkHeld (homeDie x.va) (coreDie o.core) = false) ∧
    (∃ (s : State) (o : Op) (d z : Nat) (sg : Bool) (w : Warp), s.ops[0]? = some o ∧ o.kind = .mem .load d z sg false ∧ o.aux = [] ∧ o.status = .issued ∧ s.warps[o.warp]? = some w ∧
      w.status = .running ∧ w.Shaped ∧ d + (z + 3) / 4 ≤ w.v.length ∧ (∀ g, s.wgs[o.wg]? = some g → g.status ≠ .evicted) ∧
      (∀ x ∈ o.acc, x.stage = .done ∧ x.part = 0 ∧ x.size = z ∧ x.psn = 0 ∧ x.late = false) ∧ (o.acc.map Access.lane).Nodup) ∧
    ∃ (s : State) (o : Op) (d z : Nat) (sg sl : Bool) (act : MemAct), s.ops[0]? = some o ∧ o.kind = .mem act d z sg sl ∧ o.status = .performed ∧ s.heldQueue 0 = false := by
  refine ⟨?_, ⟨aliasLab .store 0xC2000000, 0, 0, _, _, 0x30040, 0, 0x10040, (by decide +kernel : Memory.wf (aliasMem 0xC2000000) = true), op_access, rfl, rfl, rfl, op_free,
      by decide +kernel, by decide +kernel, ⟨by decide +kernel, by decide +kernel⟩, ⟨by decide +kernel, by decide +kernel⟩, not_pageAllows_of (by decide +kernel)⟩,
    ⟨accLab .load { labAcc .load with stage := .fetched }, 0, 0, _, _, op_access, rfl, by decide +kernel⟩,
    ⟨accLab .cas { labAcc .cas with stage := .fetched }, 0, 0, _, _, op_access, rfl, by decide +kernel⟩,
    ⟨opLab backOp, backOp, 2, 1, true, keyWarp, rfl, rfl, rfl, rfl, rfl, rfl, by simp [Warp.Shaped, keyWarp, addrWarp, labWarp, Warp.fresh],
      by simp [keyWarp, addrWarp, labWarp, Warp.fresh], fun g h => by cases h; decide, by decide, by decide⟩,
    ⟨opLab { labOp .store .done with status := .performed }, _, 2, 4, false, false, .store, rfl, rfl, rfl, by decide +kernel⟩⟩
  rintro act (rfl | rfl)
  · exact ⟨aliasLab .store 0xC6000000, 0, 0, _, _, 0x30040, 0, 0x10040, (by decide +kernel : Memory.wf (aliasMem 0xC6000000) = true), op_access, rfl, rfl, rfl, op_free,
      by decide +kernel, by decide +kernel, ⟨by decide +kernel, by decide +kernel⟩, ⟨by decide +kernel, by decide +kernel⟩, pageAllows_of (by decide +kernel)⟩
  · exact ⟨aliasLab .load 0xC2000000, 0, 0, _, _, 0x30040, 0, 0x10040, (by decide +kernel : Memory.wf (aliasMem 0xC2000000) = true), op_access, rfl, rfl, rfl, op_free,
      by decide +kernel, by decide +kernel, ⟨by decide +kernel, by decide +kernel⟩, ⟨by decide +kernel, by decide +kernel⟩, pageAllows_of (by decide +kernel)⟩

/-- The lab with atomic requests at the home unit. -/
def atomLab (rs : List AtomReq) : State := { opLab (labOp (.atom .add) .remote) with atomQ := rs }
def addReq : AtomReq := { cluster := 0, asid := 0, va := 0x10040, act := .atom .add, contribs := [{ op := 0, acc := 0, x := 5 }] }
def casReq : AtomReq := { addReq with act := .cas, cas := some (8, 0, 0xFFFFFFFFFFFFFFFF) }

theorem witness_AtomicsApplyAtHome :
    (∃ s i o x op c, s.ops[i]? = some o ∧ o.acc = [x] ∧ (∃ d z sg sl, o.kind = .mem (.red op) d z sg sl ∨ o.kind = .mem (.atom op) d z sg sl) ∧
      x.space = .global ∧ x.isAlias = false ∧ x.stage = .held ∧ goesFreely s i o ∧ homeDie x.va = coreDie o.core ∧
      s.clusters[coreCl o.core]? = some c ∧ c.combine = [] ∧ ∀ chip a v, s.place x.asid x.va ≠ .foreign chip a v) ∧
    (∃ (s : State) (c : Cluster) (r : AtomReq), s.clusters[0]? = some c ∧ c.combine[0]? = some r) ∧
    (∃ (s : State) (r : AtomReq) (rest : List AtomReq) (key asid va : Nat) (op : AtomOp) (x : Contrib) (o : Op) (y : Access), s.MemOk ∧ s.atomQ = r :: rest ∧
      s.onAlias r.asid r.va = false ∧ s.place r.asid r.va = .here key asid va ∧ clearWay s (r.cluster / 16) (homeDie va) ∧ Marks.read s.memPsn key 4 = 0 ∧ r.cas = none ∧
      r.act = .atom op ∧ op ≠ .fadd ∧ r.contribs = [x] ∧ s.ops[x.op]? = some o ∧ o.acc[x.acc]? = some y) ∧
    (∃ (s : State) (r : AtomReq) (rest : List AtomReq) (key asid va : Nat) (cmp new : BitVec 64), s.MemOk ∧ s.atomQ = r :: rest ∧ s.onAlias r.asid r.va = false ∧
      s.place r.asid r.va = .here key asid va ∧ clearWay s (r.cluster / 16) (homeDie va) ∧ Marks.read s.memPsn key 8 = 0 ∧ r.cas = some (8, cmp, new) ∧
      Memory.getN s.mem key 8 = cmp.toNat) ∧
    ∃ (s : State) (i : Nat) (r q : AtomReq), s.atomQ[i]? = some r ∧ q ∈ s.atomQ.take i ∧ q.asid = r.asid ∧ q.va = r.va :=
  ⟨⟨accLab (.red .fadd) (labAcc (.red .fadd)), 0, _, _, .fadd, .mk0, rfl, rfl, ⟨2, 4, false, false, .inl rfl⟩, rfl, rfl, rfl, op_free, by decide, rfl, rfl, fun chip a v h => by
      have e : (accLab (.red .fadd) (labAcc (.red .fadd))).place 0 0x10040 = .here 0x30040 0 0x10040 := by decide +kernel
      rw [show (labAcc (.red .fadd)).va = 0x10040 from rfl, show (labAcc (.red .fadd)).asid = 0 from rfl, e] at h; cases h⟩,
    ⟨{ lab labWarp labWg labGrid with clusters := { Cluster.mk0 with combine := [addReq] } :: List.replicate 63 Cluster.mk0 }, _, _, rfl, rfl⟩,
    ⟨atomLab [addReq], _, _, 0x30040, 0, 0x10040, .add, _, _, _, labMem_wf, rfl, by decide +kernel, by decide +kernel, ⟨by decide +kernel, by decide +kernel⟩, by decide, rfl, rfl, by decide,
      rfl, rfl, rfl⟩,
    ⟨atomLab [casReq], _, _, 0x30040, 0, 0x10040, _, _, labMem_wf, rfl, by decide +kernel, by decide +kernel, ⟨by decide +kernel, by decide +kernel⟩, by decide, rfl, by decide +kernel⟩,
    ⟨atomLab [addReq, casReq], 1, casReq, addReq, rfl, by decide, rfl, rfl⟩⟩

/-- The lab with page 0x20000 to get a frame, and frame 5 at the head of die 0's free list at 0x40000. -/
def zaMem : Bytes := Memory.setN (Memory.setN (codePage [] 0) 0x20020 4 0x87000000) 0x40000 4 5
def zaLab (want : List (Nat × Nat)) (tail : Word) : State :=
  { lab labWarp labWg labGrid with mem := zaMem, frameWant := want, mgmt := mapSet (mapSet [] (flBase 0 0) 4) (flTail 0 0) tail }

theorem witness_TranslationSteps :
    (∃ s k asid va key ca cva c p, s.place asid va = .here key ca cva ∧ clearWay s (coreDie k) (homeDie va) ∧ clearWay s (homeDie va) (homeDie cva) ∧
      s.cores[k]? = some c ∧ s.walk asid va = some p ∧ p.v = true ∧ p.isAlias = false) ∧
    (∃ s k asid va key ca cva c p q, s.place asid va = .here key ca cva ∧ clearWay s (coreDie k) (homeDie va) ∧ clearWay s (homeDie va) (homeDie cva) ∧
      s.cores[k]? = some c ∧ s.walk asid va = some p ∧ p.v = true ∧ p.isAlias = true ∧ p.cChip = s.chip ∧
      s.walk p.cAsid (p.cPage * 2 ^ 16 + (va - p.base)) = some q ∧ q.valid = true ∧ q.isAlias = false) ∧
    (∃ (s : State) (ca cva : Nat) (e : Pte), s.place 0 0x2FFFF = .alloc ca cva ∧ s.walk ca cva = some e ∧ (ca, e.base) ∉ s.frameWant) ∧
    (∀ tail : Word, tail = 0 ∨ tail = 1 → ∃ (s : State) (ca cva : Nat) (e : Pte), s.MemOk ∧ s.place 0 0x2FFFF = .alloc ca cva ∧ s.walk ca cva = some e ∧ e.lg = false ∧
      (ca, e.base) ∈ s.frameWant ∧ (s.reg (flHead (homeDie cva) 0) = s.reg (flTail (homeDie cva) 0) ↔ tail = 0)) ∧
    (∃ (s : State) (leaf : Nat), s.MemOk ∧ s.leafTable 0 0x10000 = some leaf ∧ (([0, 0, 0, 0] : List Word).getD 0 0).getLsbD 27 = false ∧
      (∀ e, s.walk 0 0x10000 = some e → e.lg = false) ∧ s.pageBusy 0 (0x10000 / 2 ^ 16 * 2 ^ 16) (2 ^ 16) = false ∧ (∀ c ∈ s.cores, c.l1 = []) ∧
      (∀ c ∈ s.clusters, c.cache = []) ∧ s.slices = []) ∧
    ∃ (s : State) (leaf : Nat), s.leafTable 0 0x10000 = some leaf ∧ (∀ e, s.walk 0 0x10000 = some e → e.lg = false) ∧
      s.pageBusy 0 (0x10000 / 2 ^ 16 * 2 ^ 16) (2 ^ 16) = true := by
  have e1 : ∀ s : State, s.walk 0 0x10000 = (lab labWarp labWg labGrid).walk 0 0x10000 → ∀ e, s.walk 0 0x10000 = some e → e.lg = false := by
    intro s h e he
    have : (lab labWarp labWg labGrid).walk 0 0x10000 = some { key := 0x20010, base := 0x10000, w0 := 0x86000000, w1 := 3, w2 := 0, w3 := 0 } := by decide +kernel
    rw [h, this] at he; cases he; decide
  refine ⟨⟨lab labWarp labWg labGrid, 191, 0, 0x1FFFF, 0x3FFFF, 0, 0x1FFFF, .mk0, { key := 0x20010, base := 0x10000, w0 := 0x86000000, w1 := 3, w2 := 0, w3 := 0 },
      by decide +kernel, ⟨by decide +kernel, by decide +kernel⟩, ⟨by decide +kernel, by decide +kernel⟩, by decide +kernel, by decide +kernel, by decide, by decide⟩,
    ⟨aliasLab .store 0xC2000000, 191, 0, 0x2FFFF, 0x3FFFF, 0, 0x1FFFF, .mk0, { key := 0x20020, base := 0x20000, w0 := 0xC2000000, w1 := 0, w2 := 1, w3 := 0 },
      { key := 0x20010, base := 0x10000, w0 := 0x86000000, w1 := 3, w2 := 0, w3 := 0 },
      by decide +kernel, ⟨by decide +kernel, by decide +kernel⟩, ⟨by decide +kernel, by decide +kernel⟩, by decide +kernel, by decide +kernel, by decide, by decide, by decide,
      by decide +kernel, by decide, by decide⟩,
    ⟨zaLab [] 1, 0, 0x2FFFF, { key := 0x20020, base := 0x20000, w0 := 0x87000000, w1 := 0, w2 := 0, w3 := 0 }, by decide +kernel, by decide +kernel, by decide⟩,
    fun tail h => ⟨zaLab [(0, 0x20000)] tail, 0, 0x2FFFF, { key := 0x20020, base := 0x20000, w0 := 0x87000000, w1 := 0, w2 := 0, w3 := 0 },
      (by decide +kernel : Memory.wf zaMem = true), ?_⟩,
    ⟨lab labWarp labWg labGrid, 0x20000, labMem_wf, by decide +kernel, by decide, e1 _ rfl, by decide +kernel, by decide +kernel, by decide +kernel, rfl⟩,
    ⟨accLab .store { labAcc .store with stage := .drained }, 0x20000, by decide +kernel, e1 _ (by decide +kernel), by decide +kernel⟩⟩
  obtain rfl | rfl := h <;> decide +kernel

/-! ### Engines and rings -/

/-- The lab with one engine command. -/
def cmdLab (c : Cmd) (st : OpStatus) (g : Workgroup) : State := { lab labWarp g labGrid with ops := [cmdOp c st] }

theorem cmdLab_queued (c : Cmd) (g : Workgroup) (hg : g.grid = 0) : Queued (cmdLab c .issued g) 0 (cmdOp c .issued) c g labGrid :=
  ⟨rfl, rfl, rfl, rfl, by show [labGrid][g.grid]? = _; rw [hg]; rfl⟩

theorem cmdLab_free (c : Cmd) (g : Workgroup) : enginesFree (cmdLab c .issued g) 0 (cmdOp c .issued) :=
  ⟨fun p h => absurd (show p ∈ ([] : List Op) from h) (by simp), fun p h _ => by
    have : p = cmdOp c .issued := by simpa using (show p ∈ [cmdOp c .issued] from h)
    subst this; simp [cmdOp]⟩

/-- The lab's commands, one of each kind; MMA and TCVT in the formats of the statement. -/
def labCmds : List Cmd :=
  [.tcfg 15 1, .tzero 0, .tlda 0 4 (some 128) 0x1001, .tldb 63 4 none 0x0011, .tst 0 0 (some 256), .mma 0 1 0 0 0x755, .mma 0 1 0 1 0x011, .tcvt 0 1 0x7F 0,
    .tcvt 0 1 0x7F 0x500, .ascan 0 1 3, .cld 3 0xFEF0, .cst 3 0]

theorem labWg_slots : wellFormedSlots labWg := by unfold wellFormedSlots; decide +kernel

theorem witness_MatrixCommandsRun :
    (∃ (s : State) (i : Nat) (o : Op) (cmd : Cmd) (g : Workgroup) (gr : Grid) (w : Warp), Queued s i o cmd g gr ∧ (∀ k a, cmd ≠ .copy k a) ∧ o.snap = [] ∧
      enginesFree s i o ∧ cmd.refused (viewOf g) gr.lrec = false ∧ s.warps[o.warp]? = some w) ∧
    (∃ (s : State) (i : Nat) (o : Op) (cmd : Cmd) (g : Workgroup) (gr : Grid) (w : Warp), Queued s i o cmd g gr ∧ (∀ k a, cmd ≠ .copy k a) ∧ enginesFree s i o ∧ cmd.refused (viewOf g) gr.lrec = true ∧
      s.warps[o.warp]? = some w ∧ w.status = .running) ∧
    (∀ cmd ∈ labCmds, ∃ (s : State) (o : Op) (g : Workgroup) (w : Warp), s.ops[0]? = some o ∧ o.kind = .cmd cmd ∧ (∀ k a, cmd ≠ .copy k a) ∧ o.status = .started ∧
      s.wgs[o.wg]? = some g ∧ s.warps[o.warp]? = some w ∧ (∀ p ∈ s.ops.take 0, p.wg = o.wg → p.status = .performed ∨ p.status = .complete) ∧
      (∀ p ∈ s.ops.drop 1, p.wg = o.wg → p.status ≠ .complete) ∧ o.caps.view g w = (g, w) ∧ o.hits = [] ∧ wellFormedSlots g) ∧
    (∃ (t : Tile) (sl : BSlot) (c : Carry), labWg.tiles[0]? = some t ∧ labWg.tiles[1]? = some t ∧ labWg.bslots[0]? = some sl ∧ labWarp.carry[3]? = some c ∧ t.psn = [] ∧
      sl.psn = [] ∧ t.wide = false ∧ c.psn = 0 ∧ c.h.length = 32 ∧ c.g.length = 32 ∧ 15 < labWg.tiles.length ∧ 63 < labWg.bslots.length) :=
  ⟨⟨_, 0, _, _, labWg, _, labWarp, cmdLab_queued (.cld 3 0xFEF0) labWg rfl, by simp, rfl, cmdLab_free .., by decide, rfl⟩,
    ⟨_, 0, _, _, labWg, _, labWarp, cmdLab_queued (.tlda 0 0 none 7) labWg rfl, by simp, cmdLab_free .., by decide, rfl, rfl⟩,
    fun cmd h => ⟨cmdLab cmd .started labWg, cmdOp cmd .started, labWg, labWarp, rfl, rfl, fun k a e => by
        subst e; simp [labCmds] at h, rfl, rfl, rfl, by simp, by simp [cmdLab], rfl, rfl, labWg_slots⟩,
    ⟨{}, {}, labWarp.carry.getD 3 default, by decide +kernel⟩⟩

/-- A ring of two slots of 64 bytes, with one filled and one free. -/
def labRing : Ring :=
  { n := 2, base := 0x100, slotb := 64, filled := 1, free := 1, pidx := 1, slots := [{ fill := [{ op := 3 }] }, {}] }

/-- Workgroups with that ring as their ring 0. -/
def ringWg (r : Ring) : Workgroup := { labWg with rings := labWg.rings.set 0 r }
def ringLab (r : Ring) (w : Warp) : State := lab w (ringWg r) labGrid
def ringCtx (r : Ring) (w : Warp) : Ctx := { w := w, g := ringWg r, gr := labGrid }

/-- The warp that holds slot 1 of the ring in s5, as producer, or slot 0, as consumer. -/
def holdingRing : Ring := { labRing with filled := 0, free := 0, oprod := 1, ocons := 1, slots := [{ fill := [{ op := 3 }], cacq := true }, { pacq := true }] }

theorem witness_RingsPassSlots :
    (∃ (s : State) (c : Ctx), Issues (.rinit 0 0) s c ∧ 0 < c.g.rings.length ∧ bitsAt (c.w.sreg 0) 21 5 = 0 ∧ bitsAt (c.w.sreg 0) 0 21 = 0 ∧ c.w.sreg 1 = 0x800 ∧
      c.w.sreg 2 = 0 ∧ bitsAt (c.w.sreg 0) 0 21 + (bitsAt (c.w.sreg 0) 26 6 + 1) * 0x800 = c.gr.lrec.scr * 65536) ∧
    (∃ (s : State) (c : Ctx), Issues (.rinit 0 0) s c ∧ 0 < c.g.rings.length ∧ c.w.sreg 2 ≠ 0 ∧ canTrap s c) ∧
    (∃ (s : State) (c : Ctx) (r : Machine.Ring), Issues (.rputAcq 0 63 15) s c ∧ c.g.rings[0]? = some r ∧ r.n = 0 ∧ canTrap s c) ∧
    (∃ (s : State) (c : Ctx) (r : Machine.Ring), Issues (.rgetAcq 0 63 0) s c ∧ c.g.rings[0]? = some r ∧ r.n ≠ 0 ∧ r.cwait = [] ∧ 0 < r.filled ∧ canProduce c.w 0 ∧
      (keySetOf c.w 0).length + (slotSet r true).length ≤ 4095) ∧
    (∃ (s : State) (c : Ctx) (r : Machine.Ring), Issues (.rputAcq 0 63 0) s c ∧ c.g.rings[0]? = some r ∧ r.n ≠ 0 ∧ r.free = 0 ∧ canProduce c.w 0 ∧ ∀ q ∈ r.pwait, q.warp ≠ s.cur) ∧
    (∃ (s : State) (c : Ctx) (r : Machine.Ring), Issues (.rputCmt 0 5 15) s c ∧ c.g.rings[0]? = some r ∧ bitsAt (c.w.sreg 5) 21 6 = 1 ∧ r.n ≠ 0 ∧ 1 < r.n ∧
      (r.slots.getD 1 {}).pacq = true ∧ r.pidx < r.n) ∧
    (∃ (s : State) (c : Ctx) (r : Machine.Ring), Issues (.rgetRel 0 5 0) s c ∧ c.g.rings[0]? = some r ∧ bitsAt (c.w.sreg 5) 21 6 = 0 ∧ r.n ≠ 0 ∧ 0 < r.n ∧
      (r.slots.getD 0 {}).cacq = true ∧ r.cidx < r.n) ∧
    (∃ (s : State) (c : Ctx) (r : Machine.Ring), Issues (.rgetRel 0 5 0) s c ∧ c.g.rings[0]? = some r ∧ bitsAt (c.w.sreg 5) 21 6 = 63 ∧ ¬63 < r.n ∧ canTrap s c) ∧
    ∃ (s : State) (g : Workgroup) (r : Machine.Ring) (q : RingWait) (rest : List RingWait) (w : Warp), s.wgs[0]? = some g ∧ g.rings[0]? = some r ∧ r.cwait = q :: rest ∧ s.warps[q.warp]? = some w ∧ 0 < r.filled ∧
      g.preempt = false ∧ (keySetOf w q.k).length + (slotSet r true).length ≤ 4095 :=
  ⟨⟨lab (scalars [0x7C000000, 0x800]) labWg labGrid, labCtx (scalars [0x7C000000, 0x800]), lab_issues, by decide, by decide, by decide, rfl, rfl, by decide⟩,
    ⟨lab (scalars [0x7C000000, 0x800, 1]) labWg labGrid, labCtx (scalars [0x7C000000, 0x800, 1]), lab_issues, by decide, by decide, lab_traps _⟩,
    ⟨lab labWarp labWg labGrid, labCtx labWarp, _, lab_issues, rfl, rfl, lab_traps _⟩,
    ⟨ringLab labRing labWarp, ringCtx labRing labWarp, labRing, lab_issues, rfl, by decide, rfl, by decide, .inr ⟨by decide, by decide⟩, by decide⟩,
    ⟨ringLab holdingRing labWarp, ringCtx holdingRing labWarp, holdingRing, lab_issues, rfl, by decide, rfl, .inr ⟨by decide, by decide⟩, by decide⟩,
    ⟨ringLab holdingRing (scalars [0, 0, 0, 0, 0, 0x00200140]), ringCtx holdingRing (scalars [0, 0, 0, 0, 0, 0x00200140]), holdingRing, lab_issues, rfl, by decide, by decide, by decide, rfl,
      by decide⟩,
    ⟨ringLab holdingRing labWarp, ringCtx holdingRing labWarp, holdingRing, lab_issues, rfl, by decide, by decide, by decide, rfl, by decide⟩,
    ⟨ringLab holdingRing (scalars [0, 0, 0, 0, 0, 0x07E00000]), ringCtx holdingRing (scalars [0, 0, 0, 0, 0, 0x07E00000]), holdingRing, lab_issues, rfl, by decide, by decide, canTrap_of⟩,
    ⟨ringLab { labRing with cwait := [{ warp := 1, y := 63, k := 15 }] } labWarp, _, _, _, _, _, rfl, rfl, rfl, rfl, by decide, rfl, by decide⟩⟩

/-- A CPY of 64 bytes from 0x1FFC0 into the scratchpad at 0x40, status word in s7; two rows of 64 bytes from 0x10000, their indexes, targets and table there. -/
def copyDesc : CopyArgs := { addr := 0x1FFC0, d0 := 0x40, d1 := 64, d2 := 0, d3 := 0x00500000, gp := 0, dreg := 4 }
def rowsDesc (d2 : Word) : CopyArgs := { copyDesc with addr := 0x10000, d1 := 0x00020040, d2 := d2, gp := 0x100 }
def pushDesc : CopyArgs := { copyDesc with addr := 0x10000 }

/-- A workgroup whose second index names no row. -/
def indexWg : Workgroup := { labWg with scratch := Memory.setN [] 4 4 0xFFFFFFFF }

def copyOp (k : CopyKind) (a : CopyArgs) (acc : List Access) (aux : List Nat) : Op := { cmdOp (.copy k a) .started with acc := acc, aux := aux }
def copyLab (k : CopyKind) (a : CopyArgs) (acc : List Access) (aux : List Nat) : State := { lab labWarp labWg labGrid with ops := [copyOp k a acc aux] }

theorem copyRuns (k : CopyKind) (a : CopyArgs) (acc : List Access) (aux : List Nat) : CopyRuns (copyLab k a acc aux) 0 (copyOp k a acc aux) k a labWg :=
  ⟨rfl, rfl, rfl, rfl⟩

/-- A word of a copy command at 0x10040 and scratchpad offset 0x40. -/
def wordAcc (write : Bool) (part : Nat) (st : Stage) : Access :=
  { lane := 32, part := part, space := .global, asid := 0, va := 0x10040, size := 4, write := write, scr := 0x40, be := 15, stage := st }

theorem all_acc {s : State} {o : Op} {P : Access → Prop} (h : s.ops = [o]) (hP : ∀ b ∈ o.acc, P b) : ∀ p ∈ s.ops, ∀ b ∈ p.acc, P b := by
  intro p hp; rw [h, List.mem_singleton] at hp; subst hp; exact hP

theorem plain_of {s : State} {asid va : Nat} (key a v : Nat) (h : (s.onAlias asid va == false && decide (s.place asid va = .here key a v)) = true) : plainPage s asid va := by
  simp only [Bool.and_eq_true, beq_iff_eq, decide_eq_true_eq] at h
  exact ⟨h.1, key, a, v, h.2⟩

/-- Copy commands in their queue: refused; waiting; past the address space; a page that fails; each kind as it starts. -/
theorem witness_CopyCommandsRun :
    (∃ (s : State) (i : Nat) (o : Op) (k : CopyKind) (a : CopyArgs) (g : Workgroup) (gr : Grid) (w : Warp), Queued s i o (.copy k a) g gr ∧ copyRefused k a (gr.lrec.scr * 65536) = true ∧
      s.warps[o.warp]? = some w ∧ w.status = .running ∧ w.Shaped ∧ a.dreg + 3 < 64) ∧
    (∃ (s : State) (i : Nat) (o : Op) (k : CopyKind) (a : CopyArgs) (g : Workgroup) (gr : Grid), Queued s i o (.copy k a) g gr ∧ copyRefused k a (gr.lrec.scr * 65536) = false ∧
      ∃ m ∈ o.snap, s.memberAt (coreDie o.core) m o.sc = false) ∧
    (∃ (s : State) (i : Nat) (o : Op) (k : CopyKind) (a : CopyArgs) (g : Workgroup) (gr : Grid), Queued s i o (.copy k a) g gr ∧ copyRefused k a (gr.lrec.scr * 65536) = false ∧
      o.snap = [] ∧ 2 ^ 52 ≤ a.addr) ∧
    (∃ (s : State) (i : Nat) (o : Op) (a : CopyArgs) (g : Workgroup) (gr : Grid), Queued s i o (.copy .st a) g gr ∧ copyRefused .st a (gr.lrec.scr * 65536) = false ∧ o.snap = [] ∧
      a.addr + a.d1.toNat ≤ 2 ^ 52 ∧ s.spanCheck gr.asid a.addr a.d1.toNat true false 0 = some (0x20000, .fail 0x10)) ∧
    (∃ (s : State) (i : Nat) (o : Op) (a : CopyArgs) (g : Workgroup) (gr : Grid), Queued s i o (.copy .ld a) g gr ∧ copyRefused .ld a (gr.lrec.scr * 65536) = false ∧ o.snap = [] ∧
      a.addr + a.d1.toNat ≤ 2 ^ 52 ∧ s.spanCheck gr.asid a.addr a.d1.toNat false false 0 = none ∧ a.d3.toNat % 2 ^ 12 = 0) ∧
    (∃ (s : State) (i : Nat) (o : Op) (a : CopyArgs) (g : Workgroup) (gr : Grid), Queued s i o (.copy .sst a) g gr ∧ copyRefused .sst a (gr.lrec.scr * 65536) = false ∧ o.snap = [] ∧
      a.addr < 2 ^ 52 ∧ (∀ r, r < copyRows a → a.addr + r * a.gp.toNat + copyRowb a ≤ 2 ^ 52 ∧
        s.spanCheck gr.asid (a.addr + r * a.gp.toNat) (copyRowb a) true false 0 = none) ∧ a.d3.toNat % 2 ^ 12 = 0) ∧
    (∃ (s : State) (i : Nat) (o : Op) (a : CopyArgs) (g : Workgroup) (gr : Grid), Queued s i o (.copy .g a) g gr ∧ copyRefused .g a (gr.lrec.scr * 65536) = false ∧ o.snap = [] ∧
      a.addr < 2 ^ 52 ∧ (Memory.word g.scratch 4).toNat = 2 ^ 32 - 1 ∧ bitsAt a.d2 0 21 = 0 ∧ copyRows a = 2 ∧ (∀ r, r < 1 →
        a.addr + (Memory.word g.scratch (4 * r)).toNat * copyRowb a + copyRowb a ≤ 2 ^ 52 ∧
        s.spanCheck gr.asid (a.addr + (Memory.word g.scratch (4 * r)).toNat * copyRowb a) (copyRowb a) false false 0 = none)) ∧
    (∃ (s : State) (i : Nat) (o : Op) (a : CopyArgs) (g : Workgroup) (gr : Grid), Queued s i o (.copy .x a) g gr ∧ copyRefused .x a (gr.lrec.scr * 65536) = false ∧ o.snap = [] ∧
      a.addr + 16 * (bitsAt a.d2 24 8 + 2) ≤ 2 ^ 52 ∧ s.spanCheck gr.asid a.addr (16 * (bitsAt a.d2 24 8 + 2)) false false 0 = none) ∧
    ∃ (s : State) (i : Nat) (o : Op) (a : CopyArgs) (g : Workgroup) (gr : Grid), Queued s i o (.copy .c a) g gr ∧ copyRefused .c a (gr.lrec.scr * 65536) = false ∧ o.snap = [] ∧
      a.addr + 128 + a.d1.toNat ≤ 2 ^ 52 ∧ s.spanCheck gr.asid a.addr 4 true true 0 = none ∧ s.spanCheck gr.asid (a.addr + 128) a.d1.toNat true false 0 = none ∧
      plainPage s gr.asid a.addr :=
  ⟨⟨_, 0, _, _, _, labWg, _, labWarp, cmdLab_queued (.copy .ld { copyDesc with d1 := 66 }) labWg rfl, by decide, rfl, rfl, labWarp_shaped, by decide⟩,
    ⟨{ lab labWarp labWg labGrid with ops := [{ cmdOp (.copy .ld copyDesc) .issued with sc := .sys, snap := [{ op := 1 }] }, labOp .store .wcb] }, 0, _, _, copyDesc, labWg, labGrid,
      ⟨rfl, rfl, rfl, rfl, rfl⟩, by decide, { op := 1 }, by decide, by decide +kernel⟩,
    ⟨_, 0, _, _, _, labWg, _, cmdLab_queued (.copy .st { copyDesc with addr := 2 ^ 52 }) labWg rfl, by decide, rfl, by decide⟩,
    ⟨_, 0, _, _, labWg, _, cmdLab_queued (.copy .st { copyDesc with d1 := 128 }) labWg rfl, by decide, rfl, by decide, by decide +kernel⟩,
    ⟨_, 0, _, _, labWg, _, cmdLab_queued (.copy .ld copyDesc) labWg rfl, by decide, rfl, by decide, by decide +kernel, by decide⟩,
    ⟨_, 0, _, _, labWg, _, cmdLab_queued (.copy .sst (rowsDesc 64)) labWg rfl, by decide, rfl, by decide, by decide +kernel, by decide⟩,
    ⟨_, 0, _, _, indexWg, _, cmdLab_queued (.copy .g (rowsDesc 0)) indexWg rfl, by decide, rfl, by decide, by decide +kernel, by decide, by decide, by decide +kernel⟩,
    ⟨_, 0, _, _, labWg, _, cmdLab_queued (.copy .x (rowsDesc 0)) labWg rfl, by decide, rfl, by decide, by decide +kernel⟩,
    ⟨_, 0, _, _, labWg, _, cmdLab_queued (.copy .c pushDesc) labWg rfl, by decide, rfl, by decide, by decide +kernel, by decide +kernel, plain_of 0x30000 0 0x10000 (by decide +kernel)⟩⟩

/-- The words of copy commands that run: into the scratchpad, zeros for a row that no index names, into memory. -/
theorem witness_CopyCommandsRun_words :
    (∃ (s : State) (i : Nat) (o : Op) (k : CopyKind) (a : CopyArgs) (g : Workgroup) (j : Nat) (x : Access) (key asid va : Nat), CopyRuns s i o k a g ∧ o.acc[j]? = some x ∧ loadsScratch k ∧ x.space = .global ∧ x.stage = .held ∧ x.write = false ∧
      x.isAlias = false ∧ x.size = 4 ∧ s.place x.asid x.va = .here key asid va ∧ (∀ b, b < 4 → s.place x.asid (x.va + b) = .here (key + b) asid (va + b)) ∧
      clearWay s (coreDie o.core) (homeDie va) ∧ noStoresAt s (fun n => coreCl n = coreCl o.core) [.wcb, .drained, .atCl] ∧ g.status = .running ∧ Memory.wf g.scratch = true) ∧
    (∃ (s : State) (i : Nat) (o : Op) (a : CopyArgs) (g : Workgroup) (j : Nat) (x : Access), CopyRuns s i o .g a g ∧ o.acc[j]? = some x ∧ x.space = .scratch ∧ x.stage = .held ∧ g.status = .running ∧ Memory.wf g.scratch = true ∧ o.aux.drop 2 = []) ∧
    (∀ k part, (k, part) ∈ [(CopyKind.st, 0), (.sst, 0), (.c, 0)] → ∃ (s : State) (i : Nat) (o : Op) (a : CopyArgs) (g : Workgroup) (j : Nat) (x : Access) (key asid va : Nat), s.MemOk ∧ CopyRuns s i o k a g ∧ o.acc[j]? = some x ∧ x.part = part ∧
      x.space = .global ∧ x.stage = .held ∧ x.write = true ∧ x.isAlias = false ∧ x.size = 4 ∧ x.scrWg = o.wg ∧ s.place x.asid x.va = .here key asid va ∧
      clearWay s (coreDie o.core) (homeDie va)) ∧
    (∃ (s : State) (i : Nat) (o : Op) (a : CopyArgs) (g : Workgroup) (j : Nat) (x : Access) (key asid va : Nat), s.MemOk ∧ CopyRuns s i o .x a g ∧ o.acc[j]? = some x ∧ bitsAt a.d1 16 16 ≤ j ∧ x.space = .global ∧ x.stage = .held ∧ x.write = true ∧
      x.isAlias = false ∧ x.size = 4 ∧ x.scrWg = o.wg ∧ s.place x.asid x.va = .here key asid va ∧ clearWay s (coreDie o.core) (homeDie va)) ∧
    (∀ d p, (d, p) ∈ [((0 : BitVec 128), (0 : BitVec 4)), (2, 0), (0, 1)] → ∃ (s : State) (i : Nat) (o : Op) (a : CopyArgs) (g : Workgroup) (x : Access), CopyRuns s i o .c a g ∧ o.acc = [x] ∧ x.part = 1 ∧ x.stage = .fetched ∧
      x.space = .global ∧ x.psn = p ∧ x.data = d ∧ a.d2 = 0) ∧
    (∀ part, part = 0 ∨ part = 2 → ∃ (s : State) (i : Nat) (o : Op) (a : CopyArgs) (g : Workgroup) (x l : Access), CopyRuns s i o .c a g ∧ o.acc.head? = some x ∧ o.acc.getLast? = some l ∧ (∀ y ∈ o.acc, y.stage = .done) ∧ l.part = part ∧
      x.isAlias = false ∧ plainPage s x.asid x.va) := by
  refine ⟨⟨copyLab .ld copyDesc [wordAcc false 0 .held] [0, 0], 0, _, .ld, _, _, 0, wordAcc false 0 .held, 0x30040, 0, 0x10040, copyRuns .., rfl, .inl rfl, rfl, rfl, rfl, rfl, rfl,
      by decide +kernel, by decide +kernel, ⟨by decide +kernel, by decide +kernel⟩,
      fun p hp _ b hb => all_acc (P := fun b => b.write = true → b.stage ∉ [.wcb, .drained, .atCl]) rfl (by decide) p hp b hb, rfl, rfl⟩,
    ⟨copyLab .g (rowsDesc 0) [{ wordAcc false 0 .held with space := .scratch }] [0, 0], 0, _, _, _, 0, _, copyRuns .., rfl, rfl, rfl, rfl, rfl, rfl⟩, fun k part h => ?_,
    ⟨copyLab .x (rowsDesc 0) [wordAcc true 0 .done, wordAcc true 0 .done, wordAcc true 0 .held] [0, 0, 0x10100, 2, 0x10200, 2], 0, _, _, _, 2, _, 0x30040, 0, 0x10040, labMem_wf,
      copyRuns .., rfl, by decide, rfl, rfl, rfl, rfl, rfl, rfl, by decide +kernel, ⟨by decide +kernel, by decide +kernel⟩⟩, fun d p _ =>
    ⟨copyLab .c pushDesc [{ wordAcc true 1 .fetched with va := 0x10000, data := d, psn := p }] [0, 0], 0, _, _, _, _, copyRuns .., rfl, rfl, rfl, rfl, rfl, rfl, rfl⟩, ?_⟩
  · simp only [List.mem_cons, Prod.mk.injEq, List.not_mem_nil, or_false] at h
    obtain ⟨rfl, rfl⟩ | ⟨rfl, rfl⟩ | ⟨rfl, rfl⟩ := h <;>
    exact ⟨copyLab _ copyDesc [wordAcc true 1 .done, wordAcc true 0 .held] [0, 0], 0, _, _, _, 1, wordAcc true 0 .held, 0x30040, 0, 0x10040, labMem_wf, copyRuns .., rfl, rfl, rfl, rfl, rfl,
      rfl, rfl, rfl, by decide +kernel, ⟨by decide +kernel, by decide +kernel⟩⟩
  · rintro part (rfl | rfl) <;>
    exact ⟨copyLab .c pushDesc [{ wordAcc true 1 .done with va := 0x10000 }, wordAcc true _ .done] [0, 0], 0, _, _, _, { wordAcc true 1 .done with va := 0x10000 }, wordAcc true _ .done,
      copyRuns .., rfl, rfl, by decide, rfl, rfl, plain_of 0x30000 0 0x10000 (by decide +kernel)⟩

/-- The table of the lab's CPYX: two bins of two slots, at 0x10100 and 0x10200. -/
def tableAcc : List Access := [0x10100, 0, 2, 0x10200, 0, 2].map fun (v : BitVec 128) => { wordAcc false 2 .done with data := v }

/-- A token of the lab's CPYX that has its slot. -/
def tokenAcc (e part : Nat) (slot : BitVec 128) (st : Stage) : Access := { wordAcc true part st with va := 0x1000C + 16 * e, data := slot }

/-- CPYX after its table, its tokens, and the ends of copy commands. -/
theorem witness_CopyCommandsRun_tokens :
    (∃ (s : State) (i : Nat) (o : Op) (a : CopyArgs) (g : Workgroup) (x0 : Access), CopyRuns s i o .x a g ∧ o.aux = [] ∧ o.acc.head? = some x0 ∧ (∀ x ∈ o.acc, x.stage = .done) ∧
      (∀ e, e ≤ bitsAt a.d2 24 8 + 1 → plainPage s x0.asid (a.addr + 16 * e + 12)) ∧ s.binsCheck (coreDie o.core) x0.asid a [binOf o.acc 0] = none ∧
      (((List.range 2).filter fun e => ((List.range (copyRows a)).map fun n => min (Memory.word g.scratch (bitsAt a.d2 0 21 + 4 * n)).toNat 1).contains e).map (binOf o.acc)) =
        [binOf o.acc 0]) ∧
    (∀ e part slot, (e, part, slot) ∈ [(0, 0, (1 : BitVec 128)), (0, 0, 2), (0, 1, 2), (1, 0, 2)] →
      ∃ (s : State) (i : Nat) (o : Op) (a : CopyArgs) (g : Workgroup) (x y : Access), CopyRuns s i o .x a g ∧ o.aux ≠ [] ∧ 2 ≤ o.aux.length ∧ 0 < copyRows a ∧ o.acc[0]? = some x ∧ x.space = .global ∧ x.stage = .fetched ∧ x.psn = 0 ∧
        x.part = part ∧ x.data = slot ∧ (x.va - a.addr) / 16 = e ∧ o.aux.getD (3 + 2 * e) 0 = 2 ∧ 1 < copyRows a ∧ o.acc[1]? = some y ∧ y.part = 0 ∧ y.stage ≠ .done) ∧
    (∃ (s : State) (i : Nat) (o : Op) (a : CopyArgs) (g : Workgroup) (x : Access), CopyRuns s i o .x a g ∧ o.aux ≠ [] ∧ 2 ≤ o.aux.length ∧ 1 < copyRows a ∧ o.acc[1]? = some x ∧ x.space = .global ∧ x.stage = .fetched ∧ x.psn = 0 ∧
      (∀ m z, m ≠ 1 → o.acc[m]? = some z → z.stage = .done) ∧ o.aux.getD (3 + 2 * ((x.va - a.addr) / 16)) 0 ≤ x.data.toNat % 2 ^ 32 ∧ x.part = 0 ∧
      (x.va - a.addr) / 16 < bitsAt a.d2 24 8 + 1 ∧ (∀ z ∈ o.acc, z.asid = x.asid) ∧ plainPage s x.asid (a.addr + 16 * (bitsAt a.d2 24 8 + 1) + 12)) ∧
    ∀ k ∈ [CopyKind.ld, .sld, .st, .sst, .g, .x], ∃ (s : State) (i : Nat) (o : Op) (a : CopyArgs) (g : Workgroup) (w : Warp), CopyRuns s i o k a g ∧ (∀ x ∈ o.acc, x.stage = .done) ∧ o.aux ≠ [] ∧ s.warps[o.warp]? = some w ∧
      w.status = .running ∧ w.Shaped ∧ a.dreg + 3 < 64 := by
  refine ⟨⟨copyLab .x (rowsDesc 0) tableAcc [], 0, _, _, _, _, copyRuns .., rfl, rfl, by decide, fun e h => by
        have : e = 0 ∨ e = 1 := by have : e ≤ 1 := h; omega
        obtain rfl | rfl := this
        · exact plain_of 0x3000C 0 0x1000C (by decide +kernel)
        · exact plain_of 0x3001C 0 0x1001C (by decide +kernel), by decide +kernel, by decide +kernel⟩,
    fun e part slot h => ⟨copyLab .x (rowsDesc 0) [tokenAcc e part slot .fetched, tokenAcc 0 0 0 .remote] [0, 0, 0x10100, 2, 0x10200, 2], 0, _, _, _, tokenAcc e part slot .fetched,
      tokenAcc 0 0 0 .remote, copyRuns .., by simp [copyOp], by simp [copyOp], by decide +kernel, rfl, rfl, rfl, rfl, rfl, rfl, ?_, ?_, by decide +kernel, rfl, rfl, by decide⟩,
    ⟨copyLab .x (rowsDesc 0) [tokenAcc 1 0 0 .done, tokenAcc 0 0 2 .fetched] [0, 0, 0x10100, 2, 0x10200, 2], 0, _, _, _, tokenAcc 0 0 2 .fetched, copyRuns .., by decide, by decide,
      by decide, rfl, rfl, rfl, rfl, ?_, by decide, rfl, by decide, by decide, plain_of 0x3001C 0 0x1001C (by decide +kernel)⟩,
    fun k h => ⟨copyLab k (rowsDesc 0) [wordAcc true 0 .done] [0, 0, 0x10100, 2, 0x10200, 2], 0, _, _, _, labWarp, copyRuns .., ?_, by simp [copyOp], rfl, rfl, labWarp_shaped, by decide⟩⟩
  · simp only [List.mem_cons, Prod.mk.injEq, List.not_mem_nil, or_false] at h
    obtain ⟨rfl, rfl, rfl⟩ | ⟨rfl, rfl, rfl⟩ | ⟨rfl, rfl, rfl⟩ | ⟨rfl, rfl, rfl⟩ := h <;> decide
  · simp only [List.mem_cons, Prod.mk.injEq, List.not_mem_nil, or_false] at h
    obtain ⟨rfl, rfl, rfl⟩ | ⟨rfl, rfl, rfl⟩ | ⟨rfl, rfl, rfl⟩ | ⟨rfl, rfl, rfl⟩ := h <;> rfl
  · intro m z hm hz
    match m with
    | 0 => cases hz; rfl
    | 1 => exact absurd rfl hm
    | m + 2 => simp [copyOp] at hz
  · intro x hx
    rw [show (copyOp k (rowsDesc 0) [wordAcc true 0 .done] [0, 0, 0x10100, 2, 0x10200, 2]).acc = [wordAcc true 0 .done] from rfl, List.mem_singleton] at hx
    subst hx; rfl

/-! ### Messages, pools, reductions -/

/-- A message of the lab's warp to its own workgroup's warp 1. -/
def labMsg (body : MsgBody) (st : MsgStage) : Msg :=
  { body := body, op := none, warp := some 0, asid := 0, die := 0, tgt := 0x400, tgthi := 0x05000000, sc := .sys, stage := st }

def msgLab (x : Msg) : State := { lab keyWarp labWg labGrid with msgs := [x] }

theorem only {x y : Msg} (h : y ∈ [x]) : y = x := by simpa using h

theorem first_msg {s : State} {x : Msg} {core : Nat} (h : s.msgs = [x] := by rfl) (h2 : s.ops = [] := by rfl) : firstToSend s core (some 0) s.ops := by
  refine ⟨fun n y hy hn _ => ?_, by rw [h2]; simp⟩
  rw [h] at hy
  match n with
  | 0 => exact absurd rfl hn
  | n + 1 => simp at hy

theorem first_op {s : State} {core : Nat} {earlier : List Op} (h2 : ∀ o ∈ earlier, o.status ≠ .issued) (h : s.msgs = [] := by rfl) : firstToSend s core none earlier :=
  ⟨fun n y hy => by rw [h] at hy; simp at hy, fun o ho _ hs => absurd hs (h2 o ho)⟩

def activeBody : MsgBody := .active 0 [1, 2, 3, 4, 5, 6, 7, 8] 0x77 0

/-- The lab with die 3 isolated. -/
def isoLab (s : State) : State := { s with dies := (List.replicate 4 Die.full).set 3 { Die.full with isolated := true } }

/-- Group 15 up, packages 4 to 7 routed to it. -/
def routedRegs : List (Nat × Word) := [(lgCtl 15, 0x80000000), (lgStat 15, 0x80000000), (0x10004, 0x8F8F8F8F)].foldl (fun m p => mapSet m p.1 p.2) []

/-- The message of the lab to grid 1, which package 7 holds. -/
def awayMsg : Msg := { labMsg activeBody .held with tgthi := 0x50000001 }
def awayLab : State := { msgLab awayMsg with gangs := [(0, 1, 7)], mgmt := routedRegs }

def handlerMsg (st : MsgStage) : Msg := { labMsg activeBody st with tgt := 0, tgthi := 0x50000000 }

theorem no_op {s : State} {x : Msg} (h : x.op = none) : ∀ i o, x.op = some i → s.ops[i]? = some o → o.snap = [] := fun i _ e => by rw [h] at e; cases e

theorem witness_MessagesTravel :
    (∀ away : Bool, ∃ (s : State) (x : Msg) (k : Nat) (w : Warp) (g : Workgroup) (gr : Grid), s.msgs[0]? = some x ∧ x.stage = .held ∧ x.warp = some k ∧ x.chip = none ∧
      s.warps[k]? = some w ∧ s.wgs[w.wg]? = some g ∧ s.grids[g.grid]? = some gr ∧ bitsAt x.tgthi 0 20 = gr.lrec.gridNo ∧
      (∀ i o, x.op = some i → s.ops[i]? = some o → o.snap = []) ∧ firstToSend s x.core (some 0) s.ops ∧ s.cutOff x.die (s.tgtDieOf x) = away) ∧
    (∃ (s : State) (x : Msg) (k : Nat) (w : Warp) (g : Workgroup) (gr : Grid) (h : Nat) (pay : List Word) (snd sg : Word) (n out : Nat), s.msgs[0]? = some x ∧
      x.body = .active h pay snd sg ∧ x.stage = .held ∧ x.warp = some k ∧ s.warps[k]? = some w ∧ s.wgs[w.wg]? = some g ∧ s.grids[g.grid]? = some gr ∧
      bitsAt x.tgthi 0 20 ≠ gr.lrec.gridNo ∧ s.placedGrid x.asid (bitsAt x.tgthi 0 20) ≠ some g.grid ∧ x.sc = .sys ∧
      (∀ i o, x.op = some i → s.ops[i]? = some o → o.snap = []) ∧ firstToSend s x.core (some 0) s.ops ∧
      s.gangs = [(x.asid, bitsAt x.tgthi 0 20, n)] ∧ n ≠ s.chip ∧ (s.die x.die).isolated = false ∧ s.linkHeld x.die 4 = false ∧ s.route n = .group out) ∧
    (∀ full : Bool, ∃ (s : State) (x : Msg) (set : List Member) (tag : BitVec 8) (j i : Nat) (w : Warp), s.msgs[0]? = some x ∧ x.body = .splice set tag ∧ x.stage = .sent ∧
      x.parts = 0 ∧ x.chip = none ∧ x.op = none ∧ s.linkHeld x.die (s.tgtDieOf x) = false ∧
      (∀ y ∈ s.msgs, y.stage = .sent → x.sentAt ≤ y.sentAt) ∧ s.tgtOf x = .ok j ∧ s.findWarp j (bitsAt x.tgt 10 6) = some i ∧ s.warps[i]? = some w ∧
      (8 ≤ w.recvq.length ↔ full = true)) ∧
    (∀ full : Bool, ∃ (s : State) (x : Msg) (h : Nat) (pay : List Word) (snd sg : Word) (j : Nat), s.msgs[0]? = some x ∧ x.body = .active h pay snd sg ∧ x.stage = .sent ∧
      x.chip = none ∧ s.linkHeld x.die (s.tgtDieOf x) = false ∧ (∀ y ∈ s.msgs, y.stage = .sent → x.sentAt ≤ y.sentAt) ∧
      (256 ≤ s.buffered (s.tgtDieOf x) ↔ full = true) ∧ s.tgtOf x = .ok j) ∧
    (∃ (s : State) (x : Msg) (h : Nat) (pay : List Word) (snd sg : Word) (j : Nat) (g : Workgroup) (gr : Grid) (q : Nat) (qs : List Nat), s.msgs[0]? = some x ∧ x.body = .active h pay snd sg ∧ x.stage = .buffered ∧
      x.tgtWg = some j ∧ x.chip = none ∧ pay.length = 8 ∧ (∀ y ∈ s.msgs, y.stage = .buffered → x.sentAt ≤ y.sentAt) ∧ s.wgs[j]? = some g ∧
      g.status = .running ∧ s.grids[g.grid]? = some gr ∧ (s.cluster (coreCl g.core)).dbg = .none ∧ s.freeSlots g.core ≠ [] ∧
      s.freeHandlers j = q :: qs ∧ 0 < freeRegs s j gr.lrec) ∧
    ∀ away : Bool, ∃ (s : State) (o : Op), s.ops[0]? = some o ∧ o.status = .performed ∧ s.heldQueue 0 = false ∧ (∀ y ∈ s.msgs, y.toChip = none) ∧
      s.linkHeld (coreDie o.core) 3 = false ∧ s.cutOff (coreDie o.core) 3 = away := by
  refine ⟨fun away => ⟨isoLab (msgLab { labMsg (.splice [{ op := 0 }] 7) .held with die := if away then 3 else 0 }), _, 0, _, _, _, rfl, rfl, rfl, rfl, rfl, rfl, rfl, ?_, no_op rfl,
      first_msg, ?_⟩,
    ⟨awayLab, awayMsg, 0, keyWarp, labWg, labGrid, _, _, _, _, 7, 15, rfl, rfl, rfl, rfl, rfl, rfl, rfl, by decide, by decide +kernel, rfl, no_op rfl, first_msg, rfl, by decide +kernel,
      by decide +kernel, by decide +kernel, by decide +kernel⟩,
    fun full => ⟨{ msgLab (labMsg (.splice [{ op := 0 }] 7) .sent) with
        warps := [keyWarp, { labWarp with num := 1, slot := 1, recvq := if full then List.replicate 8 { set := [], sc := .die, tag := 7 } else [] }] },
      labMsg (.splice [{ op := 0 }] 7) .sent, [{ op := 0 }], 7, 0, 1,
      { labWarp with num := 1, slot := 1, recvq := if full then List.replicate 8 { set := [], sc := .die, tag := 7 } else [] }, ?_⟩,
    fun full => ⟨{ msgLab (handlerMsg .sent) with msgs := handlerMsg .sent :: if full then List.replicate 256 { handlerMsg .buffered with tgtWg := some 0 } else [] },
      handlerMsg .sent, 0, [1, 2, 3, 4, 5, 6, 7, 8], 0x77, 0, 0, ?_⟩,
    ⟨msgLab { labMsg activeBody .buffered with tgtWg := some 0 }, _, _, _, _, _, 0, _, _, _, _, rfl, rfl, rfl, rfl, rfl, rfl,
      fun y h _ => by rw [only h], rfl, rfl, rfl, rfl, by decide +kernel, by rfl, by decide⟩,
    fun away => ⟨if away then isoLab (opLab { labOp .store .done with status := .performed }) else opLab { labOp .store .done with status := .performed },
      { labOp .store .done with status := .performed }, ?_⟩⟩
  all_goals first | cases away | cases full
  all_goals decide +kernel

/-- An MCLD of the lab's warp: 2 lines of 0x10000 at DOFF 1, by key words in s4. -/
def mcldOp (st : OpStatus) : Op :=
  { kind := .mcld 0x10000 4 0x00010150 0, warp := 0, wg := 0, core := 0, pc := 0x10000, sc := .sys, status := st }
def poolMember (wg : Nat) : PoolMember := { wg := wg, base := 2, size := 3, tmo := 10 }
def poolLab (st : OpStatus) (ms : List PoolMember) : State := { lab labWarp labWg (poolGrid ms) with ops := [mcldOp st], now := 2560 }

def labHold : Hold :=
  { die := 0, slice := 0, grid := 0, pool := 0, va := 0x10000, nlines := 2, isOpen := true, awaited := [0, 1], included := [0], tmo := 10 }
def labJob (read : Bool) : PoolJob :=
  { asid := 0, va := 0x10000, nlines := 2, read := read, fills := [{ op := 0, kind := 2, awaited := 2, included := 1 }], data := if read then [(255, 9)] else [] }

/-- The lab with a pool read to be made. -/
def jobLab : State := { poolLab .started [poolMember 0] with jobs := [labJob false] }

theorem one_hold {s : State} (h : Hold) (hs : s.holds = [h] := by rfl) : noHoldFull s 0 := by
  intro k x hk hn
  rw [hs] at hk
  match k with
  | 0 => exact absurd rfl hn
  | k + 1 => simp at hk

theorem witness_PoolLoadsFill :
    (∃ (s : State) (o : Op) (addr y : Nat) (ctl : Word) (pool : Nat) (g : Workgroup) (gr : Grid) (w : Warp), s.ops[0]? = some o ∧ o.kind = .mcld addr y ctl pool ∧ o.status = .issued ∧ s.wgs[o.wg]? = some g ∧
      s.grids[g.grid]? = some gr ∧ (∀ p ∈ s.ops.take 0, p.core ≠ o.core) ∧ (∀ m ∈ (gr.pools.getD pool {}).members, m.wg ≠ o.wg) ∧
      s.warps[o.warp]? = some w ∧ w.status = .running ∧ w.Shaped ∧ y < 64) ∧
    (∃ (s : State) (o : Op) (addr y : Nat) (ctl : Word) (pool : Nat) (g : Workgroup) (gr : Grid) (m : PoolMember), s.ops[0]? = some o ∧ o.kind = .mcld addr y ctl pool ∧ o.status = .issued ∧ s.wgs[o.wg]? = some g ∧
      s.grids[g.grid]? = some gr ∧ m ∈ (gr.pools.getD pool {}).members ∧ m.wg = o.wg ∧
      (gr.pools.getD pool {}).members.find? (fun x => x.wg == o.wg) = some m ∧ (∃ x ∈ (gr.pools.getD pool {}).members, x.wg ≠ o.wg) ∧
      s.holds = [] ∧ bitsAt ctl 0 4 = 0 ∧ 1 ≤ bitsAt ctl 7 9 ∧ bitsAt ctl 7 9 ≤ 256 ∧ 1 ≤ bitsAt ctl 4 3 ∧ bitsAt ctl 4 3 ≤ 5 ∧ addr % 128 = 0 ∧
      bitsAt ctl 16 16 + bitsAt ctl 7 9 ≤ m.size ∧ addr < 2 ^ 52 ∧ s.spanCheck gr.asid addr (128 * bitsAt ctl 7 9) false false (coreDie o.core) = none) ∧
    (∃ (s : State) (h : Hold) (gr : Grid) (p : Pool), s.holds[0]? = some h ∧ h.isOpen = true ∧ h.free = false ∧ h.queued = [] ∧ h.startAt + 256 * h.tmo ≤ s.now ∧
      s.grids[h.grid]? = some gr ∧ gr.pools[h.pool]? = some p ∧ noHoldFull s 0) ∧
    (∃ (s : State) (h : Hold) (gr : Grid) (p : Pool), s.holds[0]? = some h ∧ h.isOpen = true ∧ h.free = false ∧ h.queued = [] ∧ 100 * (s.now - h.startAt) < 99 * 256 * h.tmo ∧
      s.grids[h.grid]? = some gr ∧ gr.pools[h.pool]? = some p ∧ noHoldFull s 0) ∧
    (∃ (s : State) (j : PoolJob) (o : Op), s.jobs[0]? = some j ∧ j.read = false ∧ s.ops[j.src]? = some o ∧ o.acc = [] ∧
      (∀ f ∈ j.fills, ∀ x, s.ops[f.op]? = some x → x.snap = []) ∧ s.spanCheck j.asid j.va (128 * j.nlines) false false (homeDie j.va) = none ∧
      ∀ i, i < 8 * j.nlines → ∃ (k a v : Nat) (w : Word), s.place j.asid (j.va + 16 * i) = .here k a v ∧ permCheck (s.probeWord j.asid (j.va + 16 * i)) false false = .ok w) ∧
    ∃ (s : State) (o : Op) (addr y : Nat) (ctl : Word) (pool : Nat) (g : Workgroup) (gr : Grid) (m : PoolMember) (j : PoolJob) (f : Fill) (w : Warp), s.ops[0]? = some o ∧ o.kind = .mcld addr y ctl pool ∧ s.wgs[o.wg]? = some g ∧ s.grids[g.grid]? = some gr ∧
      (gr.pools.getD pool {}).members.find? (fun x => x.wg == o.wg) = some m ∧ s.jobs = [j] ∧ j.read = true ∧ j.fills = [f] ∧ f.op = 0 ∧
      (∀ c ∈ j.data, c.1 < 128 * j.nlines) ∧ Memory.wf j.data = true ∧ Memory.wf g.scratch = true ∧ s.warps[o.warp]? = some w ∧
      w.status = .running ∧ w.Shaped ∧ y < 64 := by
  refine ⟨⟨poolLab .issued [poolMember 1], _, _, _, _, _, _, _, _, rfl, rfl, rfl, rfl, rfl, by simp, by decide, rfl, rfl, labWarp_shaped, by decide⟩,
    ⟨poolLab .issued [poolMember 1, poolMember 0], _, _, _, _, _, _, _, poolMember 0, rfl, rfl, rfl, rfl, rfl, by decide, rfl, by rfl, by decide, rfl, by decide,
      by decide, by decide, by decide, by decide, by decide, by decide, by decide, by rfl⟩,
    ⟨{ poolLab .started [poolMember 1, poolMember 0] with holds := [labHold] }, _, _, _, rfl, rfl, rfl, rfl, by decide, rfl, rfl, one_hold _⟩,
    ⟨{ poolLab .started [poolMember 1, poolMember 0] with holds := [{ labHold with startAt := 2560 }] }, _, _, _, rfl, rfl, rfl, rfl, by decide, rfl, rfl, one_hold _⟩,
    ⟨jobLab, _, _, rfl, rfl, rfl, rfl, ?_, by rfl, ?_⟩,
    ⟨{ poolLab .started [poolMember 0] with jobs := [labJob true] }, _, _, _, _, _, _, _, _, _, _, _, rfl, rfl, rfl, rfl, by rfl, rfl, rfl, rfl, rfl, by decide,
      by decide, by decide, rfl, rfl, labWarp_shaped, by decide⟩⟩
  · intro f hf x hx
    have : f = { op := 0, kind := 2, awaited := 2, included := 1 } := by simpa [labJob] using hf
    subst this; cases hx; rfl
  · intro i hi
    have hi : i < 16 := hi
    have : ∀ i, i < 16 → jobLab.place 0 (0x10000 + 16 * i) = .here (0x30000 + 16 * i) 0 (0x10000 + 16 * i) ∧
        permCheck (jobLab.probeWord 0 (0x10000 + 16 * i)) false false = .ok 0x86000000 := by decide +kernel
    exact ⟨_, _, _, _, (this i hi).1, (this i hi).2⟩

/-- A reduction of the lab's warp with COUNT n and ID 15, .die. -/
def nredOp (n : Word) (st : OpStatus) (aux : List Nat) : Op :=
  { kind := .nred .addI32 2 4 (0x00F30000 + n) 5 10, warp := 0, wg := 0, core := 0, pc := 0x10000, sc := .die, status := st, aux := aux }
def nredLab (o : Op) : State := { lab labWarp labWg labGrid with ops := [o], now := 2560 }
def labInst : NredInst := { grid := 0, die := some 0, id := 15, z := .addI32, count := 2, ops := [0], startAt := 0, tmo := 10 }
def timeOp (aux : List Nat) : Op := { kind := .time 62, warp := 0, wg := 0, core := 0, pc := 0x10000, sc := .wg, aux := aux }

/-- A second contribution to the lab's instance, from warp 1. -/
def joinOp (n : Word) : Op := { nredOp n .issued [] with warp := 1 }
def joinLab (n : Word) : State := { nredLab (nredOp n .started []) with ops := [nredOp n .started [], joinOp n], nreds := [{ labInst with count := n.toNat }] }

theorem witness_ReductionsAndTime :
    (∀ n : Word, n = 2 ∨ n = 1 → ∃ (s : State) (o : Op) (z : NredOp) (x y : Nat) (ctl : Word) (v : BitVec 64) (tmo : Nat) (g : Workgroup), s.ops[0]? = some o ∧
      o.kind = .nred z x y ctl v tmo ∧ o.status = .issued ∧ s.wgs[o.wg]? = some g ∧ o.snap = [] ∧ firstToSend s o.core none (s.ops.take 0) ∧ bitsAt ctl 16 3 = 3 ∧
      (∀ n ∈ s.nreds, n.isOpen = false) ∧ bitsAt ctl 0 16 = n.toNat ∧ z = .addI32) ∧
    (∀ n : Word, n = 2 ∨ n = 3 → ∃ (s : State) (o : Op) (z : NredOp) (x y : Nat) (ctl : Word) (v : BitVec 64) (tmo : Nat) (g : Workgroup) (q : NredInst), s.ops[1]? = some o ∧
      o.kind = .nred z x y ctl v tmo ∧ o.status = .issued ∧ s.wgs[o.wg]? = some g ∧ o.snap = [] ∧ firstToSend s o.core none (s.ops.take 1) ∧ bitsAt ctl 16 3 = 3 ∧
      s.nreds[0]? = some q ∧ q.isOpen = true ∧ q.grid = g.grid ∧ q.die = some (coreDie o.core) ∧ q.id = bitsAt ctl 20 4 ∧ q.count < 2 ^ 16 ∧
      (∀ m r, s.nreds[m]? = some r → r.isOpen = true → r.grid = q.grid → r.die = q.die → r.id = q.id → m = 0) ∧
      (∀ j ∈ q.ops, ∃ p, s.ops[j]? = some p ∧ p.warp ≠ o.warp) ∧ (q.ops.length + 1 = q.count ↔ n = 2)) ∧
    (∃ (s : State) (o : Op) (z : NredOp) (x y : Nat) (ctl : Word) (v : BitVec 64) (tmo : Nat), s.ops[0]? = some o ∧ o.kind = .nred z x y ctl v tmo ∧ o.status = .issued ∧
      bitsAt ctl 16 3 = 4 ∧ (s.die (coreDie o.core)).isolated = false ∧ s.linkHeld (coreDie o.core) 4 = false) ∧
    (∀ late : Bool, ∃ (s : State) (n : NredInst) (o : Op), s.nreds[0]? = some n ∧ n.isOpen = true ∧ (n.startAt + 256 * n.tmo ≤ s.now ↔ late = true) ∧
      (100 * (s.now - n.startAt) < 99 * 256 * n.tmo ↔ late = false) ∧ n.ops = [0] ∧ s.ops[0]? = some o) ∧
    (∃ (s : State) (o : Op) (z : NredOp) (x y : Nat) (ctl : Word) (v : BitVec 64) (tmo r st : Nat) (w : Warp), s.ops[0]? = some o ∧ o.kind = .nred z x y ctl v tmo ∧ o.status = .started ∧ o.aux = [r, st] ∧ o.acc = [] ∧
      s.warps[o.warp]? = some w ∧ w.status = .running ∧ (s.wgs[w.wg]?).map Workgroup.status ≠ some .evicted ∧ w.Shaped ∧ x < 64 ∧ y < 64 ∧ x ≠ y ∧ x + 1 < 64 ∧ y ≠ x + 1 ∧ r < 2 ^ 64) ∧
    (∀ tr : Bool, ∃ (s : State) (o : Op) (d : Nat) (l : DieLink), s.ops[0]? = some o ∧ o.kind = .time d ∧ o.status = .issued ∧ o.aux = [] ∧ s.links[3 * coreDie o.core]? = some l ∧ l.failed = false ∧
      l.training = tr ∧ coreDie o.core < 4) ∧
    ∀ tb : Nat, tb = 2 ^ 40 ∨ tb = 0 → ∃ (s : State) (o : Op) (d b h : Nat) (w : Warp) (x : Die), s.ops[0]? = some o ∧ o.kind = .time d ∧ o.status = .issued ∧ o.aux = [b, h] ∧
      s.warps[o.warp]? = some w ∧ w.status = .running ∧ w.Shaped ∧ d + 1 < 64 ∧ s.dies[coreDie o.core]? = some x ∧ (max (b + h) x.lastTime ≤ s.tb + 16 ↔ tb ≠ 0) := by
  refine ⟨fun n h => ⟨nredLab (nredOp n .issued []), _, _, _, _, _, _, _, _, rfl, rfl, rfl, rfl, rfl, first_op (by simp), ?_⟩,
    fun n h => ⟨joinLab n, joinOp n, .addI32, 2, 4, 0x00F30000 + n, 5, 10, labWg, { labInst with count := n.toNat }, rfl, rfl, rfl, rfl, rfl, first_op (by simp [joinLab, nredOp]), ?_, rfl, rfl,
      rfl, by simp [labInst, joinOp, nredOp, coreDie], ?_, ?_, ?_, by simp [labInst, joinLab, nredLab, nredOp, joinOp], ?_⟩,
    ⟨nredLab { nredOp 2 .issued [] with kind := .nred .addI32 2 4 0x00F40002 5 10 }, _, _, _, _, _, _, _, rfl, rfl, rfl, by decide, by decide +kernel, by decide +kernel⟩,
    fun late => ⟨{ nredLab (nredOp 2 .started []) with nreds := [{ labInst with startAt := if late then 0 else 2560 }] },
      { labInst with startAt := if late then 0 else 2560 }, nredOp 2 .started [], rfl, rfl, ?_⟩,
    ⟨nredLab (nredOp 2 .started [7, 0x10001]), _, _, _, _, _, _, _, _, _, _, rfl, rfl, rfl, rfl, rfl, rfl, rfl, by decide, labWarp_shaped, by decide, by decide, by decide,
      by decide, by decide, by decide⟩,
    fun tr => ⟨{ nredLab (timeOp []) with links := (List.replicate 12 DieLink.mk0).set 0 { training := tr } }, _, _, { training := tr }, rfl, rfl, rfl, rfl, rfl, rfl, rfl, by decide⟩,
    fun tb h => ⟨{ nredLab (timeOp [2 ^ 40, 3]) with tb := tb }, _, _, _, _, _, _, rfl, rfl, rfl, rfl, rfl, rfl, labWarp_shaped, by decide, rfl, ?_⟩⟩
  · obtain rfl | rfl := h <;> decide
  · obtain rfl | rfl := h <;> decide
  · obtain rfl | rfl := h <;> decide
  · obtain rfl | rfl := h <;> decide
  · intro m r hm
    match m with
    | 0 => simp
    | m + 1 => simp [joinLab] at hm
  · obtain rfl | rfl := h <;> decide
  · cases late <;> decide
  · obtain rfl | rfl := h <;> decide

/-! ### The distributor -/

/-- A smallest record at 0x10000: one workgroup of one warp. -/
def recordPairs : List (Nat × Nat) := [(0, 0x1001), (4, 0x01010101), (8, 1), (16, 4), (60, 1), (80, 0x100010), (84, 0x10000)]
def recordMem : Bytes := recordPairs.foldl (fun m p => Memory.setN m (0x30000 + p.1) 4 p.2) (codePage [] 0)
def recordList : List Word := (List.range 84).map fun n => BitVec.ofNat 32 (((recordPairs.find? fun p => p.1 == 4 * n).map Prod.snd).getD 0)

def devCand : Candidate := { src := .device 0 0, addr := 0x10000, asid := 0, arrival := 0 }
def hostCand : Candidate := { src := .host 63, addr := 0, asid := 0, arrival := 0 }

/-- The lab with candidates and a queue 63 of two entries at 0x10000, enabled, whose first entry names a record. -/
def distLab (mem : Bytes) (cs : List Candidate) : State :=
  { lab labWarp { labWg with launchQ := [{ addr := 0x10000, op := 0 }] } labGrid with
    ops := [{ kind := .launch 0x10000, warp := 0, wg := 0, core := 0, pc := 0x10000, sc := .sys }], mem := mem, cands := cs, devBuf := 1
    mgmt := mapSet (mapSet [] (lqCtl 63) 0x80000001) (lqBaseLo 63) 0x10000 }

/-- A record that holds its grid until a start. -/
def startRecord : Record := { oneWarpRecord 0x10000 with start := 5000000, counter := 0x10000 }
def placedCand (r : Record) : Candidate := { devCand with lrec := some r }

/-- The lab with a second grid at a status. -/
def gridLab (st : GridStatus) (f : Grid → Grid) : State :=
  { lab labWarp labWg labGrid with grids := [labGrid, f { newGrid startRecord 0 0x10000 (.device 0 0) st with pools := [] }]
                                   tb := 5000000, ops := [{ kind := .launch 0x10000, warp := 0, wg := 0, core := 0, pc := 0x10000, sc := .sys }] }

def readsTo (r : SysRead) (f : List Word → Bool) : Bool :=
  match r with
  | .ok ws => f ws
  | _ => false

theorem of_readsTo {r : SysRead} {f : List Word → Bool} (h : readsTo r f = true) : ∃ ws, r = .ok ws ∧ f ws = true := by
  cases r <;> simp_all [readsTo]

def rankedTo (l : List (Nat × Candidate × Record)) (f : Nat → Candidate → Record → Bool) : Bool :=
  match l with
  | (n, c, r) :: _ => f n c r
  | [] => false

theorem of_rankedTo {l : List (Nat × Candidate × Record)} {f : Nat → Candidate → Record → Bool} (h : rankedTo l f = true) :
    ∃ n c r rest, l = (n, c, r) :: rest ∧ f n c r = true := by
  match l with
  | (n, c, r) :: rest => exact ⟨n, c, r, rest, rfl, h⟩
  | [] => simp [rankedTo] at h

theorem no_mem {α : Type} {l : List α} {p : α → Prop} (h : l = []) : ∀ x ∈ l, p x := by simp [h]

theorem witness_GridsArePlacedStartedAndSignalled :
    (∃ (s : State) (g : Workgroup) (e : LaunchEntry) (rest : List LaunchEntry) (o : Op) (gr : Grid), s.wgs[0]? = some g ∧ g.launchQ = e :: rest ∧ s.ops[e.op]? = some o ∧ s.grids[g.grid]? = some gr ∧
      g.status ≠ .terminated ∧ o.snap = [] ∧ firstToSend s o.core none (s.ops.take e.op) ∧ (s.die (coreDie g.core)).isolated = false ∧
      s.linkHeld (coreDie g.core) 4 = false ∧ s.devBuf < 64 ∧ g.status ≠ .evicted) ∧
    (∃ s : State, oldestOfSource s 0 { devCand with addr := 0x20000 } ∧ launchAt s { devCand with addr := 0x20000 } 0 0x20000 ∧ s.sysRead 0 0x20000 84 = .wait) ∧
    (∃ s : State, oldestOfSource s 0 devCand ∧ devCand.lrec = none ∧ launchAt s devCand 0 0x10000 ∧
      ∃ ws, s.sysRead 0 0x10000 84 = .ok ws ∧ s.refusesRecord 0x10000 ws = false) ∧
    (∃ s : State, oldestOfSource s 0 hostCand ∧ hostCand.lrec = none ∧ launchAt s hostCand 0 0x10040 ∧
      ∃ ws, s.sysRead 0 0x10040 84 = .ok ws ∧ s.refusesRecord 0x10040 ws = true) ∧
    (∃ s : State, oldestOfSource s 0 { devCand with addr := 0x20000 } ∧ launchAt s { devCand with addr := 0x20000 } 0 0x20000 ∧
      s.sysRead 0 0x20000 84 = .bad) ∧
    (∃ s : State, s.ranked.map (fun x => x.2.2.gclass) = [3, 0]) ∧
    (∃ (s : State) (n : Nat) (c : Candidate) (r : Record) (rest : List (Nat × Candidate × Record)), s.ranked = (n, c, r) :: rest ∧
      (decide (s.cands[n]? = some c) && decide (r.start ≠ 0) && decide (s.holdsUsed < 16)) = true) ∧
    (∃ (s : State) (n : Nat) (c : Candidate) (r : Record) (rest : List (Nat × Candidate × Record)), s.ranked = (n, c, r) :: rest ∧ (decide (s.cands[n]? = some c) && decide (r.start = 0) &&
      decide (s.waitsAbove r.gclass (some n) none = false) && decide (s.restoreFirst r.gclass = false) &&
      (({ s with grids := s.grids ++ [newGrid r c.asid c.addr c.src .placed] } : State).plan r (fun _ => false)).isSome) = true) ∧
    (∃ (s : State) (g : Grid), s.grids[1]? = some g ∧ g.status = .waiting ∧ g.lrec.start ≤ s.tb + (s.reg 0x0060).toNat ∧
      noneBefore s g.lrec.gclass none (some 1) ∧ ∃ p, s.plan g.lrec (fun _ => false) = some p) ∧
    (∃ (s : State) (g : Grid), s.grids[1]? = some g ∧ g.status = .placed ∧ g.lrec.start = s.tb) ∧
    (∃ (s : State) (g : Grid) (k ca cva : Nat) (w0 : Word), s.MemOk ∧ s.grids[1]? = some g ∧ g.lrec.counter % 8 = 0 ∧ g.lrec.counter < 2 ^ 52 ∧ (∀ r ∈ s.devReqs, r.use ≠ .signal 1) ∧ g.status = .released ∧
      (∀ w ∈ s.wgs, w.grid = 1 → w.hasEnded = true) ∧ (∀ o ∈ s.ops, (s.wgs[o.wg]?).map Workgroup.grid = some 1 → o.status = .complete) ∧ g.flagged = false ∧
      s.walkCheck g.asid g.lrec.counter true true = .ok w0 ∧ s.place g.asid (g.lrec.counter + 4) = .here k ca cva ∧ Marks.read s.memPsn k 4 = 0) ∧
    ∃ (s : State) (g : Grid) (k ca cva : Nat), s.MemOk ∧ s.grids[1]? = some g ∧ g.lrec.counter % 8 = 0 ∧ g.lrec.counter < 2 ^ 52 ∧ (∀ r ∈ s.devReqs, r.use ≠ .signal 1) ∧ g.status = .refused ∧ g.flagged = true ∧
      s.place g.asid g.lrec.counter = .here k ca cva ∧ Marks.read s.memPsn k 4 = 0 := by
  refine ⟨⟨distLab (codePage [] 0) [], _, _, _, _, _, rfl, rfl, rfl, rfl, by decide, rfl, first_op (by simp), by decide +kernel, by decide +kernel, by decide, by decide⟩,
    ⟨distLab zaMem [{ devCand with addr := 0x20000 }], ⟨rfl, by simp⟩, ⟨rfl, rfl⟩, by decide +kernel⟩,
    ⟨distLab recordMem [devCand], ⟨rfl, by simp⟩, rfl, ⟨rfl, rfl⟩, recordList, by decide +kernel, by decide +kernel⟩,
    ⟨distLab (Memory.setN (codePage [] 0) 0x30000 4 0x10040) [hostCand], ⟨rfl, by simp⟩, rfl,
      ⟨by decide +kernel, by decide +kernel, by decide +kernel, 0x10040, 0, by decide +kernel, by decide +kernel⟩, of_readsTo (by decide +kernel)⟩,
    ⟨distLab recordMem [{ devCand with addr := 0x20000 }], ⟨rfl, by simp⟩, ⟨rfl, rfl⟩, by decide +kernel⟩,
    ⟨distLab recordMem [placedCand startRecord, { placedCand { startRecord with gclass := 3 } with src := .device 0 1 }], by decide +kernel⟩,
    ⟨distLab recordMem [placedCand startRecord], of_rankedTo (by decide +kernel)⟩,
    ⟨distLab recordMem [placedCand (oneWarpRecord 0x10000)], of_rankedTo (by decide +kernel)⟩,
    ⟨gridLab .waiting id, _, rfl, rfl, by decide +kernel, ⟨by decide +kernel, by decide +kernel⟩, Option.isSome_iff_exists.1 (by decide +kernel)⟩,
    ⟨gridLab .placed id, _, rfl, rfl, rfl⟩,
    ⟨gridLab .released id, _, 0x30004, 0, 0x10004, 0x86000000, labMem_wf, rfl, by decide +kernel, by decide +kernel, no_mem rfl,
      rfl, by decide +kernel, by decide +kernel, rfl, by decide +kernel, by decide +kernel, by decide +kernel⟩,
    ⟨gridLab .refused fun g => { g with flagged := true }, _, 0x30000, 0, 0x10000, labMem_wf, rfl, by decide +kernel, by decide +kernel, no_mem rfl,
      rfl, rfl, by decide +kernel, by decide +kernel⟩⟩

/-! ### Eviction and the watchdog -/

/-- A warp of the lab that waits at barrier 0. -/
def blockedWarp : Warp := { labWarp with wait := .bwait 0 true }

/-- The lab with both warps blocked; die 0 has a save pool of 128 KiB at 0x100000. -/
def evictLab : State :=
  { lab blockedWarp { labWg with preempt := true } labGrid with
    warps := [blockedWarp, { blockedWarp with num := 1, slot := 1 }], mgmt := mapSet (mapSet [] (maDie 0 0x20) 0x10) (maDie 0 0x24) 2 }

def evictRoom : SaveRange := { die := 0, base := 0x100000, size := 0x1A000 }

def evictedWg : Workgroup := { labWg with status := .evicted, saved := some evictRoom }

/-- The lab with its workgroup saved at 0x100000, warp 0 at a barrier whose phase has ended, warp 1 ended; `words` are the image's. -/
def savedLab (words : List (Nat × Nat)) : State :=
  { lab labWarp evictedWg labGrid with
    warps := [{ labWarp with wait := .bwait 0 false }, { labWarp with num := 1, slot := 1, status := .ended }]
    mem := words.foldl (fun m p => Memory.setN m (0x100000 + p.1) 4 p.2) (codePage [] 0)
    dies := { Die.full with saves := [evictRoom] } :: List.replicate 3 Die.full }

/-- An image's words: PART, NWARP, WAKE and ROLE of warp 0, WAKE of warp 1. -/
def savedImage : List (Nat × Nat) := [(0, 0x10101), (4, 2), (0x10208, 1), (0x1020C, 0x10), (0x14A28, 0xF)]

/-- The lab whose watchdog counts 1 clk, with the workgroup's request pending or a warp starved, which has waited n clk. -/
def dogLab (w : Warp) (g : Workgroup) : State :=
  { lab w g labGrid with mgmt := mapSet [] (maDie 0 0x10) 1, cores := { Core.mk0 with wd := 1 } :: List.replicate 767 Core.mk0 }

/-- The lab with warp 1, of the scheduler of warp 0, starved. -/
def starvedLab : State := { dogLab labWarp labWg with warps := [labWarp, { labWarp with num := 1, slot := 2, starved := true, unsel := 1025 }] }

theorem witness_EvictionAndTheWatchdog :
    (∃ (s : State) (g : Workgroup) (gr : Grid) (room : SaveRange), s.wgs[0]? = some g ∧ s.grids[g.grid]? = some gr ∧ g.status = .running ∧ g.preempt = true ∧
      s.MemOk ∧ (∀ l ∈ (s.core g.core).l1, l.dirty = 0) ∧ g.tiles.length = 16 ∧ s.stopped 0 g = false ∧ s.saveWaits 0 = false ∧ (∀ w ∈ s.warps, w.wg = 0 → w.status = .running → w.handler = none ∧ w.masked = false ∧ w.blocked = true) ∧
      coreDie g.core < s.dies.length ∧ s.saveRoom (coreDie g.core) (s.imageSize 0 g gr.lrec) = some room) ∧
    (∀ img off, (img, off) ∈ [(savedImage, none), (savedImage.drop 1, some 0)] →
      ∃ (s : State) (g : Workgroup) (gr : Grid) (room : SaveRange) (core : Nat), s.wgs[0]? = some g ∧ s.grids[g.grid]? = some gr ∧ g.saved = some room ∧
        s.restoreCore 0 = some core ∧ s.restorable 0 = true ∧ (∀ (i : Nat) (x : Workgroup), s.restorable i = true → s.wgs[i]? = some x → g.seq ≤ x.seq) ∧
        worstOffset (imageChecks (fun o => Memory.word s.mem (physKey room.die room.base + o)) g gr.lrec) = off ∧ s = savedLab img) ∧
    (∃ (s : State) (c : Ctx), s.ctxAt 0 = some c ∧ s.isReady c = true ∧ max 64 (bitsAt (s.reg (maDie (coreDie c.g.core) 0x14)) 0 16) < c.w.unsel) ∧
    (∃ (s : State) (x : Core) (g : Workgroup) (gr : Grid), s.cores[0]? = some x ∧ s.reg (maDie (coreDie 0) 0x10) ≠ 0 ∧ (s.reg (maDie (coreDie 0) 0x10)).toNat ≤ x.wd ∧
      s.pendingWgs 0 = [0] ∧ s.wgs[0]? = some g ∧ s.grids[g.grid]? = some gr) ∧
    ∃ (s : State) (x : Core) (wi : Nat) (c0 c : Ctx) (h : Rdy), s.cores[0]? = some x ∧ s.reg (maDie (coreDie 0) 0x10) ≠ 0 ∧
      (s.reg (maDie (coreDie 0) 0x10)).toNat ≤ x.wd ∧ s.pendingWgs 0 = [] ∧ starvedLongest (s.starvedOf 0) = some (wi, c0) ∧
      (s.refresh (coreCl 0)).ctxAt wi = some c ∧ (s.refresh (coreCl 0)).isReady c = true ∧ (s.refresh (coreCl 0)).slotHolder c = some h ∧ h.idx ≠ wi ∧ canTrapAt (s.refresh (coreCl 0)) h.idx h.c := by
  refine ⟨⟨evictLab, { labWg with preempt := true }, labGrid, evictRoom, by decide +kernel, by decide +kernel, rfl, rfl, labMem_wf, no_mem rfl, rfl, by decide, by decide +kernel, by decide +kernel,
      by decide, by decide +kernel⟩, ?_,
    ⟨{ lab { labWarp with unsel := 65 } labWg labGrid with mgmt := mapSet [] (maDie 0 0x14) 16 }, labCtx { labWarp with unsel := 65 }, by decide +kernel, by decide +kernel, by decide +kernel⟩,
    ⟨dogLab labWarp { labWg with preempt := true }, { Core.mk0 with wd := 1 }, { labWg with preempt := true }, labGrid, by decide +kernel, by decide +kernel, by decide +kernel,
      by decide +kernel, by decide +kernel, by decide +kernel⟩,
    ⟨starvedLab, { Core.mk0 with wd := 1 }, 1, labCtx { labWarp with num := 1, slot := 2, starved := true, unsel := 1025 },
      labCtx { labWarp with num := 1, slot := 2, starved := true, unsel := 1025 }, { idx := 0, c := labCtx labWarp, f := starvedLab.fetch 0 0x10000 },
      by decide +kernel, by decide +kernel, by decide +kernel, by decide +kernel, by decide +kernel, by decide +kernel, by decide +kernel, by decide +kernel, by decide,
      lab_canTrap.1, lab_canTrap.2.1, lab_canTrap.2.2, no_mem rfl⟩⟩
  intro img off h
  refine ⟨savedLab img, evictedWg, labGrid, evictRoom, 0, rfl, rfl, rfl, ?_, ?_, ?_, ?_, rfl⟩
  · simp only [List.mem_cons, Prod.mk.injEq, List.not_mem_nil, or_false] at h
    obtain ⟨rfl, rfl⟩ | ⟨rfl, rfl⟩ := h <;> decide +kernel
  · simp only [List.mem_cons, Prod.mk.injEq, List.not_mem_nil, or_false] at h
    obtain ⟨rfl, rfl⟩ | ⟨rfl, rfl⟩ := h <;> decide +kernel
  · intro i x _ hx
    match i with
    | 0 => cases hx; exact Nat.le_refl _
    | i + 1 => rw [show (savedLab img).wgs = [evictedWg] from rfl] at hx; simp at hx
  · simp only [List.mem_cons, Prod.mk.injEq, List.not_mem_nil, or_false] at h
    obtain ⟨rfl, rfl⟩ | ⟨rfl, rfl⟩ := h <;> decide +kernel

/-! ### Debug -/

/-- The lab with READY set, cluster 0 as given, and registers written. -/
def regLab (w : Warp) (g : Workgroup) (gr : Grid) (c : Cluster) (rs : List (Nat × Word)) : State :=
  { lab w g gr with clusters := c :: List.replicate 63 Cluster.mk0, mgmt := rs.foldl (fun m p => mapSet m p.1 p.2) (mapSet [] 0x10 0x80000000) }

/-- A grid without scratchpad and accumulators: its dump lies in one page. -/
def smallGrid : Grid := { labGrid with lrec := { labRecord with scr := 0, acc := 0, privSize := 0 } }

/-- Breakpoint 3 of cluster 0 at 0x10000; a picked warp there. -/
def bpLab (c : Cluster) : State := { regLab labWarp labWg labGrid c [(bpLo 0 3, 0x10001)] with picked := [0] }

/-- The lab's workgroup in the stop logic of cluster 0; its dump at 0x10000. -/
def dbgLab (d : DbgState) (c : Cluster) (rs : List (Nat × Word)) : State :=
  regLab labWarp labWg smallGrid { c with dbg := d, dbgWg := 0, dbgCause := 1 } ((dumpBaseLo 0, 0x10000) :: rs)

/-- The length of the lab's dump. -/
def dumpSize (s : State) : Nat := 256 + labWg.warpBase smallGrid.lrec + ((s.ordinary 0).map fun p => warpRecord p.2).sum

/-- A packet. -/
def onePacket : Packet := .temit 0 0 0

/-- A warp that a resume let pass the breakpoint at its PC. -/
def passingWarp : Warp := { labWarp with passBp := true, stalledAt := some 0x10000 }

theorem witness_BreakpointsStopsAndSteps :
    (∃ (s : State) (c : Ctx) (x : Cluster), s.ctxAt 0 = some c ∧ 0 ∈ s.picked ∧ c.w.psnTrap = none ∧ s.clusters[coreCl c.g.core]? = some x ∧
      c.w.passBp = true ∧ c.w.stalledAt = some c.w.pc) ∧
    (∀ x ∈ [Cluster.mk0, { dbg := .stopping }, { dbg := .stepping }, { dbg := .stopped, dbgWg := 1 }], ∃ (s : State) (c : Ctx), s.ctxAt 0 = some c ∧ 0 ∈ s.picked ∧
      c.w.psnTrap = none ∧ c.w.passBp = false ∧ s.clusters[coreCl c.g.core]? = some x ∧ (s.reg (bpLo 0 3)).getLsbD 0 = true ∧
      (∀ m, m < 3 → (s.reg (bpLo 0 m)).getLsbD 0 = false) ∧
      c.w.pc.toNat = bitsAt (s.reg (bpHi 0 3)) 0 20 * 2 ^ 32 + 4 * bitsAt (s.reg (bpLo 0 3)) 2 30 ∧ bitsAt (s.reg (bpAsid 0 3)) 0 13 = c.gr.asid ∧ c.w.pc.toNat % 4 = 0) ∧
    (∀ d ∈ [DbgState.none, .stopping, .stopped], ∃ (s : State) (x : Cluster), s.up = true ∧ s.clusterPresent 0 = true ∧ s.namedWg 0 = some 0 ∧ s.clusters[0]? = some x ∧ x.dbg = d) ∧
    (∃ s : State, s.namedWg 0 = none) ∧
    (∀ n ∈ [some 0, none], ∃ (s : State) (x : Cluster), s.up = true ∧ s.clusterPresent 0 = true ∧ s.clusters[0]? = some x ∧ x.dbg = .stopped ∧ x.dbgWg = 0 ∧ s.namedWg 0 = n) ∧
    (∀ base ok, (base, ok) ∈ [(0x10000, Chk.ok 0x86000000), (0x20000, .fail 0x10)] →
      ∃ (s : State) (x : Cluster) (g : Workgroup) (gr : Grid) (w : Warp) (size : Nat), s.up = true ∧ s.clusterPresent 0 = true ∧ s.clusters[0]? = some x ∧ x.dbg = .stopped ∧
        s.namedWg 0 = some x.dbgWg ∧ s.wgs[x.dbgWg]? = some g ∧ s.grids[g.grid]? = some gr ∧
        base = bitsAt (s.reg (dumpBaseHi 0)) 0 20 * 2 ^ 32 + (s.reg (dumpBaseLo 0)).toNat ∧ size = dumpSize s ∧
        size = 256 + g.warpBase gr.lrec + ((s.ordinary x.dbgWg).map fun p => warpRecord p.2).sum ∧ base + size ≤ 2 ^ 52 ∧ s.spanAway gr.asid base size = false ∧
        s.devReqs = [] ∧ pagePieces base size = [(base, size)] ∧ (512, 0, w) ∈ s.recordOffsets x.dbgWg g gr.lrec ∧ s.warps[0]? = some w ∧ w.status = .running ∧
        s.walkCheck gr.asid base false false 0 = ok) ∧
    (∃ (s : State) (x : Cluster) (g : Workgroup) (gr : Grid), s.clusters[0]? = some x ∧ x.dbg = .stopping ∧ s.wgs[x.dbgWg]? = some g ∧ s.grids[g.grid]? = some gr ∧
      s.cmdsLive x.dbgWg = true) ∧
    (∀ fifo rs, (fifo, rs) ∈ [([], []), (List.replicate 575 onePacket, [(trCtl 0, 0x80000000)]), (List.replicate 576 onePacket, [(trCtl 0, 0x80010000)])] →
      ∃ (s : State) (x : Cluster) (g : Workgroup) (gr : Grid) (w0 : Word), s = dbgLab .stopping { fifo := fifo } rs ∧ s.clusters[0]? = some x ∧ x.dbg = .stopping ∧
        x.fifo = fifo ∧ s.wgs[x.dbgWg]? = some g ∧ s.grids[g.grid]? = some gr ∧ s.cmdsLive x.dbgWg = false ∧ s.spanWaits 0 gr.asid 0x10000 (dumpSize s) true = false ∧
        s.spanAway gr.asid 0x10000 (dumpSize s) = false ∧ (∀ r ∈ s.devReqs, r.use ≠ .dump 0) ∧
        ((s.reg (trCtl 0)).getLsbD 31 = true ↔ fifo ≠ []) ∧ s.MemOk ∧ 0x10000 % 2 ^ 16 + dumpSize s ≤ 2 ^ 16 ∧
        s.walkCheck gr.asid 0x10000 true false 0 = .ok w0 ∧ s.place gr.asid 0x10000 = .here 0x30000 0 0x10000) ∧
    (∃ (s : State) (x : Cluster) (g : Workgroup), s.clusters[0]? = some x ∧ x.dbg = .stepping ∧ s.wgs[x.dbgWg]? = some g ∧ g.hasEnded = true) ∧
    (∃ (s : State) (x : Cluster) (g : Workgroup), s.clusters[0]? = some x ∧ x.dbg = .stepping ∧ s.wgs[x.dbgWg]? = some g ∧ g.hasEnded = false ∧ 4096 ≤ x.stepClk) ∧
    (∃ (s : State) (x : Cluster) (g : Workgroup), s.clusters[0]? = some x ∧ x.dbg = .stepping ∧ s.wgs[x.dbgWg]? = some g ∧ g.hasEnded = false ∧
      ∀ w ∈ s.warps, w.wg = x.dbgWg → w.status = .running → w.issued = true) ∧
    ∃ (s : State) (x : Cluster) (g : Workgroup), s.clusters[0]? = some x ∧ x.dbg = .stepping ∧ s.wgs[x.dbgWg]? = some g ∧ g.hasEnded = false ∧ x.stepClk < 4096 ∧
      ∃ w ∈ s.warps, w.wg = x.dbgWg ∧ w.status = .running ∧ w.issued = false := by
  refine ⟨⟨{ regLab passingWarp labWg labGrid .mk0 [] with picked := [0] }, labCtx passingWarp, .mk0, by decide +kernel⟩, fun x h => ⟨bpLab x, labCtx labWarp, ?_⟩, ?_,
    ⟨regLab labWarp labWg smallGrid .mk0 [(dbgSeq 0, 7)], by decide +kernel⟩, ?_, ?_,
    ⟨{ dbgLab .stopping {} [] with ops := [cmdOp (.tzero 0) .started] }, { dbg := .stopping, dbgCause := 1 }, labWg, smallGrid, by decide +kernel⟩, ?_,
    ⟨{ dbgLab .stepping {} [] with wgs := [{ labWg with status := .ended }] }, { dbg := .stepping, dbgCause := 1 }, { labWg with status := .ended }, by decide +kernel⟩,
    ⟨dbgLab .stepping { stepClk := 4096 } [], { dbg := .stepping, dbgCause := 1, stepClk := 4096 }, labWg, by decide +kernel⟩,
    ⟨{ dbgLab .stepping {} [] with warps := [{ labWarp with issued := true }, { labWarp with num := 1, status := .ended }] }, { dbg := .stepping, dbgCause := 1 }, labWg,
      by decide +kernel⟩,
    ⟨dbgLab .stepping {} [], { dbg := .stepping, dbgCause := 1 }, labWg, by decide +kernel⟩⟩
  · simp only [List.mem_cons, List.not_mem_nil, or_false] at h
    obtain rfl | rfl | rfl | rfl := h <;> decide +kernel
  · intro d _
    exact ⟨regLab labWarp labWg smallGrid { dbg := d } [(dbgSeq 0, 1)], { dbg := d }, (by decide +kernel :
      (regLab labWarp labWg smallGrid .mk0 [(dbgSeq 0, 1)]).up = true), (by decide +kernel :
      (regLab labWarp labWg smallGrid .mk0 [(dbgSeq 0, 1)]).clusterPresent 0 = true), (by decide +kernel :
      (regLab labWarp labWg smallGrid .mk0 [(dbgSeq 0, 1)]).namedWg 0 = some 0), rfl, rfl⟩
  · intro n h
    simp only [List.mem_cons, List.not_mem_nil, or_false] at h
    obtain rfl | rfl := h
    · exact ⟨dbgLab .stopped {} [(dbgSeq 0, 1)], { dbg := .stopped, dbgCause := 1 }, by decide +kernel⟩
    · exact ⟨dbgLab .stopped {} [(dbgSeq 0, 7)], { dbg := .stopped, dbgCause := 1 }, by decide +kernel⟩
  · intro base ok h
    simp only [List.mem_cons, Prod.mk.injEq, List.not_mem_nil, or_false] at h
    obtain ⟨rfl, rfl⟩ | ⟨rfl, rfl⟩ := h
    · exact ⟨dbgLab .stopped {} [(dbgSeq 0, 1)], { dbg := .stopped, dbgCause := 1 }, labWg, smallGrid, labWarp, _, by decide +kernel, by decide +kernel, rfl, rfl, by decide +kernel,
        rfl, rfl, by decide +kernel, rfl, by decide +kernel, by decide +kernel, by decide +kernel, rfl, by decide +kernel, by decide +kernel, rfl, rfl, by decide +kernel⟩
    · exact ⟨dbgLab .stopped {} [(dbgSeq 0, 1), (dumpBaseLo 0, 0x20000)], { dbg := .stopped, dbgCause := 1 }, labWg, smallGrid, labWarp, _, by decide +kernel, by decide +kernel, rfl, rfl,
        by decide +kernel, rfl, rfl, by decide +kernel, rfl, by decide +kernel, by decide +kernel, by decide +kernel, rfl, by decide +kernel, by decide +kernel, rfl, rfl, by decide +kernel⟩
  · intro fifo rs h
    refine ⟨_, { fifo := fifo, dbg := .stopping, dbgWg := 0, dbgCause := 1 }, labWg, smallGrid, 0x86000000, rfl, rfl, rfl, rfl, rfl, rfl, ?_, ?_, ?_, no_mem rfl, ?_, labMem_wf, ?_, ?_, ?_⟩ <;>
    simp only [List.mem_cons, Prod.mk.injEq, List.not_mem_nil, or_false] at h <;> obtain ⟨rfl, rfl⟩ | ⟨rfl, rfl⟩ | ⟨rfl, rfl⟩ := h <;> decide +kernel

/-! ### Trace -/

theorem getN_congr {m m' : Bytes} (n : Nat) : ∀ a, (∀ b, a ≤ b → b < a + n → Memory.get m b = Memory.get m' b) → Memory.getN m a n = Memory.getN m' a n := by
  induction n with
  | zero => intro a _; rfl
  | succ n ih =>
    intro a h
    rw [Memory.getN, Memory.getN, h a (by omega) (by omega), ih (a + 1) fun b h1 h2 => h b (by omega) (by omega)]

/-- Below the frame of page 0x10000 memory is as the page's tables lie in it. -/
def TablesAt (m : Bytes) : Prop := ∀ b, b < 0x30000 → Memory.get m b = Memory.get (codePage [] 0) b

theorem tables_getN {m : Bytes} (h : TablesAt m) (a n : Nat) (hb : a + n ≤ 0x30000) : Memory.getN m a n = Memory.getN (codePage [] 0) a n :=
  getN_congr n a fun b _ h2 => h b (by omega)

/-- Such tables at 0 without an error, the filter empty, die 0 fitted, its own way to itself open. -/
structure PageAt (s : State) : Prop where
  tables : TablesAt s.mem
  table : s.asidTable = 0
  clean : s.memPsn = []
  remap : s.remap = []
  fits : 0x31000 ≤ s.capacity 0
  way : s.linkHeld 0 0 = false

theorem page_walk {s : State} (h : PageAt s) {i : Nat} (hi : i < 4096) :
    s.walk 0 (0x10000 + i) = some { key := 0x20010, base := 0x10000, w0 := 0x86000000, w1 := 3, w2 := 0, w3 := 0 } := by
  have hm := h.tables
  have e1 : homeDie (0x10000 + i) = 0 := by unfold homeDie; omega
  have e2 : field (0x10000 + i) 33 17 = 0 := by unfold field; omega
  have e3 : field (0x10000 + i) 16 17 = 1 := by unfold field; omega
  have e4 : (0x10000 + i) / 2 ^ 16 * 2 ^ 16 = 0x10000 := by omega
  have k0 : Memory.getN s.mem 0 8 = 0x10001 := (tables_getN hm _ _ (by omega)).trans (by decide +kernel)
  have k1 : Memory.getN s.mem 0x10000 8 = 0x20001 := (tables_getN hm _ _ (by omega)).trans (by decide +kernel)
  have b0 : Memory.word s.mem 0x20000 = 0 := by rw [Memory.word, tables_getN hm _ _ (by omega)]; decide +kernel
  have p0 : Memory.word s.mem 0x20010 = 0x86000000 := by rw [Memory.word, tables_getN hm _ _ (by omega)]; decide +kernel
  have p1 : Memory.word s.mem 0x20014 = 3 := by rw [Memory.word, tables_getN hm _ _ (by omega)]; decide +kernel
  have p2 : Memory.word s.mem 0x20018 = 0 := by rw [Memory.word, tables_getN hm _ _ (by omega)]; decide +kernel
  have p3 : Memory.word s.mem 0x2001C = 0 := by rw [Memory.word, tables_getN hm _ _ (by omega)]; decide +kernel
  have m0 : Marks.read [] 0 8 = 0 := by decide
  have m1 : Marks.read [] 65536 8 = 0 := by decide
  have m2 : (Marks.read [] (131072 + 16 * 1) 16 != 0) = false := by decide
  have hl : s.leafTable 0 (0x10000 + i) = some 0x20000 := by
    simp only [State.leafTable, e1, e2, h.table, h.clean, physKey]
    norm_num [k0, k1, field, m0, m1]
  have g0 : ((0 : Word).getLsbD 31 && (0 : Word).getLsbD 27) = false := by decide
  have g1 : (0x86000000 : Word).getLsbD 27 = false := by decide
  simp only [State.walk, hl, e3, State.pteAt, State.entryBad, h.clean, e4, Pte.v, Pte.lg, b0, p0, p1, p2, p3, g0, g1, m2, Bool.or_false, Bool.false_eq_true, if_false]

theorem page_place {s : State} (h : PageAt s) {i : Nat} (hi : i < 4096) :
    s.place 0 (0x10000 + i) = .here (0x30000 + i) 0 (0x10000 + i) := by
  have e1 : homeDie (0x10000 + i) = 0 := by unfold homeDie; omega
  have r : s.remapHit 0 (0x10000 + i) = none := by rw [State.remapHit, h.remap]; rfl
  rw [State.place, State.entryAt, r, page_walk h hi]
  have v : Pte.valid { key := 0x20010, base := 0x10000, w0 := 0x86000000, w1 := 3, w2 := 0, w3 := 0 } = true := by decide
  have a : Pte.isAlias { key := 0x20010, base := 0x10000, w0 := 0x86000000, w1 := 3, w2 := 0, w3 := 0 } = false := by decide
  have z : Pte.za { key := 0x20010, base := 0x10000, w0 := 0x86000000, w1 := 3, w2 := 0, w3 := 0 } = false := by decide
  have f : Pte.frame { key := 0x20010, base := 0x10000, w0 := 0x86000000, w1 := 3, w2 := 0, w3 := 0 } = 3 := by decide
  have c : s.fitted 0 (3 * 2 ^ 16 + (65536 + i - 65536)) = true := by
    have := h.fits
    simp only [State.fitted, decide_eq_true_eq]; omega
  simp only [v, a, z, f, c, State.placeIn, e1, physKey, Bool.not_true, Bool.false_eq_true, if_false, if_true, Place.here.injEq, and_true]
  omega

theorem page_check {s : State} (h : PageAt s) {i : Nat} (hi : i < 4096) :
    s.walkCheck 0 (0x10000 + i) true false 0 = .ok 0x86000000 := by
  have a : Pte.isAlias { key := 0x20010, base := 0x10000, w0 := 0x86000000, w1 := 3, w2 := 0, w3 := 0 } = false := by decide
  have v : Pte.v { key := 0x20010, base := 0x10000, w0 := 0x86000000, w1 := 3, w2 := 0, w3 := 0 } = true := by decide
  have c : permCheck 0x86000000 true false = .ok 0x86000000 := by decide
  have e1 : homeDie (0x10000 + i) = 0 := by unfold homeDie; omega
  have k : s.cutOff 0 0 = false := by simp [State.cutOff]
  simp only [State.walkCheck, State.probeWord, page_walk h hi, page_place h hi, a, v, c, e1, k, h.way, Bool.or_false, Bool.not_true, Bool.false_eq_true, if_false]

/-- A buffer of 4 KiB at 0x10000 of ASID 0. -/
theorem lab_bufAt {s : State} {lo hi size : Nat} (h : PageAt s) (h1 : s.reg lo = 0x10000) (h2 : s.reg hi = 0)
    (h3 : s.reg size = 4096) : bufAt s 0 0 lo hi size 0x30000 := by
  have n : bufSize s size = 4096 := by simp [bufSize, h3]
  have va : ∀ i, bitsAt (s.reg hi) 0 20 * 2 ^ 32 + (s.reg lo).toNat / 128 * 128 + i = 0x10000 + i := by intro i; simp [h1, h2, bitsAt]
  refine ⟨by omega, fun i hi => ?_⟩
  rw [n] at hi
  simp only [va]
  refine ⟨by omega, ⟨_, page_check h hi⟩, ⟨0, 0x10000 + i, page_place h hi⟩, fun m hm => ?_⟩
  exact (page_place (s := { s with mem := m }) { h with tables := fun b hb => (hm b (.inl hb)).trans (h.tables b hb) } hi).trans (page_place h hi).symm

/-- A cluster whose FIFO holds a TEMIT record, its buffer of 4 KiB at 0x10000 with WP and RP as given. -/
def bufLab (x : Cluster) (wp rp : Word) : State :=
  regLab labWarp labWg labGrid x [(trBaseLo 0, 0x10000), (trSize 0, 4096), (trWp 0, wp), (trRp 0, rp), (stBaseLo 0, 0x10000), (stSize 0, 4096), (stWp 0, wp), (stRp 0, rp)]

def recordPacket : Packet := .temit 64 0x1122334455667788 1000

/-- A full entry of the stall table. -/
def fullEntry : StallEntry := { pc := 0x10000, reason := 1, blame := 0x10004, asid := 0, set := 0, count := 2 ^ 32 - 1 }

theorem bufLab_page {x : Cluster} {wp rp : Word} (h : (bufLab x wp rp).asidTable = 0) : PageAt (bufLab x wp rp) :=
  ⟨fun _ _ => rfl, h, rfl, rfl, (by decide +kernel : 0x31000 ≤ (lab labWarp labWg labGrid).capacity 0),
    (by decide +kernel : (lab labWarp labWg labGrid).linkHeld 0 0 = false)⟩

/-- The buffer's page by the remap filter's copy of an entry: package 7 holds it. -/
def awayBufLab : State :=
  let s := bufLab { fifo := [recordPacket] } 0 0
  { s with remap := [{ die := 0, slice := 0, asid := 0, base := 0x10000, size := 0x10000, words := [0xC2000000, 0, 1, 7] }]
           mgmt := [(lgCtl 15, 0x80000000), (lgStat 15, 0x80000000), (0x10004, 0x8F8F8F8F)].foldl (fun m p => mapSet m p.1 p.2) s.mgmt }

theorem witness_TraceAndProfiling_writes :
    (∀ v en : Word, (v, en) ∈ [(0, 0), (0xFFFFFFFF, 0x80000000), (0x80000000, 0)] → ∃ (s : State) (x : Cluster), s.up = true ∧ s.clusterPresent 0 = true ∧ s.clusters[0]? = some x ∧ s.reg (trCtl 0) = en ∧
      (v.getLsbD 31 = false ∨ (s.reg (trCtl 0)).getLsbD 31 = true ∨ (v.getLsbD 31 = true ∧ (s.reg (trCtl 0)).getLsbD 31 = false))) ∧
    (∃ (s : State) (x : Cluster), s.up = true ∧ s.clusterPresent 63 = true ∧ s.clusters[63]? = some x ∧ bufSize s (stSize 63) < 4096) ∧
    (∃ (s : State) (x : Cluster), s.clusters[0]? = some x ∧ x.counted = true) ∧
    (∃ (s : State) (x : Cluster), s.clusters[0]? = some x ∧ x.counted = false ∧ (s.reg (stCtl 0)).getLsbD 31 = false ∧ x.spillQ = []) ∧
    (∃ (s : State) (x : Cluster), s.MemOk ∧ s.clusters[0]? = some x ∧ x.stalls[0]? = some fullEntry ∧ fullEntry.count = 2 ^ 32 - 1 ∧ x.spillQ = [] ∧
      (∀ r ∈ s.devReqs, r.use ≠ .stall 0) ∧ bufSize s (stSize 0) < 4096) ∧
    ∀ (wp rp : Word), (wp, rp) ∈ [(4090, 57), (4080, 4144)] → ∃ (s : State) (x : Cluster), s = bufLab { stalls := [fullEntry] } wp rp ∧ s.MemOk ∧ s.clusters[0]? = some x ∧
      x.stalls[0]? = some fullEntry ∧ x.spillQ = [] ∧ (∀ r ∈ s.devReqs, r.use ≠ .stall 0) ∧
      bufAt s (0 / 16) (bitsAt (s.reg (stCtl 0)) 16 13) (stBaseLo 0) (stBaseHi 0) (stSize 0) 0x30000 := by
  refine ⟨fun v en h => ⟨regLab labWarp labWg labGrid .mk0 [(trCtl 0, en)], .mk0, ?_⟩, ⟨regLab labWarp labWg labGrid .mk0 [], .mk0, by decide +kernel⟩,
    ⟨regLab labWarp labWg labGrid { counted := true } [], { counted := true }, rfl, rfl⟩, ⟨regLab labWarp labWg labGrid { counted := false } [], { counted := false }, rfl, rfl, by decide +kernel, rfl⟩,
    ⟨regLab labWarp labWg labGrid { stalls := [fullEntry] } [], { stalls := [fullEntry] }, labMem_wf, rfl, rfl, rfl, rfl, no_mem rfl, by decide +kernel⟩,
    fun wp rp h => ⟨_, { stalls := [fullEntry] }, rfl, labMem_wf, rfl, rfl, rfl, no_mem rfl, ?_⟩⟩
  · simp only [List.mem_cons, Prod.mk.injEq, List.not_mem_nil, or_false] at h
    obtain ⟨rfl, rfl⟩ | ⟨rfl, rfl⟩ | ⟨rfl, rfl⟩ := h <;> decide +kernel
  · simp only [List.mem_cons, Prod.mk.injEq, List.not_mem_nil, or_false] at h
    have e : bitsAt ((bufLab { stalls := [fullEntry] } wp rp).reg (stCtl 0)) 16 13 = 0 := by
      obtain ⟨rfl, rfl⟩ | ⟨rfl, rfl⟩ := h <;> decide +kernel
    rw [e]
    obtain ⟨rfl, rfl⟩ | ⟨rfl, rfl⟩ := h <;> exact lab_bufAt (bufLab_page (by decide +kernel)) (by decide +kernel) (by decide +kernel) (by decide +kernel)

theorem witness_TraceAndProfiling :
    (∃ (s : State) (c : Ctx) (x : Warp), Issues .yield s c ∧ s.warps[1]? = some x ∧ x.slot % 2 = c.w.slot % 2 ∧ x.wait = .none) ∧
    (∀ (n : Nat) (rs : List (Nat × Word)), (n, rs) ∈ [(0, []), (511, [(trCtl 0, 0x80000000)]), (512, [(trCtl 0, 0x80000000), (trDrop 0, 0xFFFFFFFF)])] →
      ∃ (s : State) (c : Ctx) (x : Cluster), Issues (.temit 0 63) s c ∧ s.clusters[coreCl c.g.core]? = some x ∧ x.fifo.length = n ∧ (tracing s 0 c.gr.asid ↔ n ≠ 0)) ∧
    (∀ (x : Cluster) (wp rp : Word), (x, wp, rp) ∈ [({ fifo := [recordPacket] }, 4090, 0), ({ fifo := [recordPacket] }, 4090, 4180),
        ({ fifo := [recordPacket], lastTs := some 900, sinceSync := 255, lossCnt := 2 }, 4090, 2000)] →
      ∃ s : State, s = bufLab x wp rp ∧ s.MemOk ∧ s.clusters[0]? = some x ∧ x.fifo = [recordPacket] ∧ x.trFail = false ∧ (∀ r ∈ s.devReqs, r.use ≠ .trace 0) ∧
        bufAt s (0 / 16) x.drainAsid (trBaseLo 0) (trBaseHi 0) (trSize 0) 0x30000) ∧
    (bufFree (bufLab .mk0 4090 0) (trSize 0) (trWp 0) (trRp 0) = 6 ∧ bufFree (bufLab .mk0 4090 4180) (trSize 0) (trWp 0) (trRp 0) = 26 + 64 ∧
      bufFree (bufLab .mk0 4090 57) (stSize 0) (stWp 0) (stRp 0) = 63 ∧ bufFree (bufLab .mk0 4080 4144) (stSize 0) (stWp 0) (stRp 0) = 64) ∧
    ∃ (s : State) (x : Cluster) (bytes : List Byte), s.MemOk ∧ s.clusters[0]? = some x ∧ x.fifo = [recordPacket] ∧ x.trFail = false ∧ (∀ r ∈ s.devReqs, r.use ≠ .trace 0) ∧
      x.lastTs = none ∧ bytes = syncBytes recordPacket.ts x.nPkts 0 ++ recordPacket.bytes recordPacket.ts ∧
      (let b := s.circBuf (trBaseLo 0) (trBaseHi 0) (trSize 0) (trWp 0) (trRp 0)
       s.badStore x.drainAsid (b.addrs bytes.length) 0 = none ∧ ∃ q ∈ b.spans bytes, s.spanAway x.drainAsid q.1 q.2.length = true) := by
  refine ⟨⟨{ lab labWarp labWg labGrid with warps := [labWarp, { labWarp with num := 1, slot := 2 }] }, labCtx labWarp, { labWarp with num := 1, slot := 2 },
      lab_issues, by decide +kernel⟩, fun n rs h => ⟨regLab labWarp labWg labGrid { fifo := List.replicate n onePacket } rs, labCtx labWarp,
      { fifo := List.replicate n onePacket }, ?_, rfl, by simp, ?_⟩, fun x wp rp h => ⟨_, rfl, labMem_wf, rfl, ?_⟩, by decide +kernel,
    ⟨awayBufLab, { fifo := [recordPacket] }, _, labMem_wf, rfl, rfl, rfl, no_mem rfl, rfl, rfl, by decide +kernel, by decide +kernel⟩⟩
  · simp only [List.mem_cons, Prod.mk.injEq, List.not_mem_nil, or_false] at h
    obtain ⟨rfl, rfl⟩ | ⟨rfl, rfl⟩ | ⟨rfl, rfl⟩ := h <;> exact lab_issues
  · simp only [List.mem_cons, Prod.mk.injEq, List.not_mem_nil, or_false] at h
    unfold tracing
    obtain ⟨rfl, rfl⟩ | ⟨rfl, rfl⟩ | ⟨rfl, rfl⟩ := h <;> decide +kernel
  · simp only [List.mem_cons, Prod.mk.injEq, List.not_mem_nil, or_false] at h
    obtain ⟨rfl, rfl, rfl⟩ | ⟨rfl, rfl, rfl⟩ | ⟨rfl, rfl, rfl⟩ := h <;> exact ⟨rfl, rfl, no_mem rfl, lab_bufAt (bufLab_page (by decide +kernel)) (by decide +kernel) (by decide +kernel) (by decide +kernel)⟩

/-! ### Registers -/

/-- A step goes on to a state with a property. -/
def nextHas (r : Host.Outcome State Fault Refusal) (f : State → Bool) : Bool :=
  match r with
  | .next t => f t
  | _ => false

theorem of_next {r : Host.Outcome State Fault Refusal} {f : State → Bool} {b : Bool} (h : nextHas r (fun t => f t == b) = true) : ∃ t, r = .next t ∧ f t = b := by
  cases r <;> simp_all [nextHas]

/-- The lab with READY and registers. -/
def upLab (rs : List (Nat × Word)) : State := regLab labWarp labWg labGrid .mk0 rs

theorem witness_RegistersReadAndWritten :
    (∀ (i : Instr), i ∈ [.ellostRead, .lllostRead, .mellostRead 3, .mellostRead 4, .cecntRead 3, .trdropRead 63, .stlostRead 63] →
      ∃ (ma : Nat) (s : State), clearingRead i = some ma ∧ readPresent s i ∧ s.up = true) ∧
    (∃ (s : State) (x : Core), s.up = true ∧ s.corePresent 767 = true ∧ s.clusterPresent (767 / 12) = true ∧ s.cores[767]? = some x) ∧
    (∃ s : State, s.up = true ∧ plainReg s 0x84 0xFFFFFFFF ∧ plainReg s (maDie 3 0x58) 0x000FFFFF ∧ plainReg s (maCl 63 0x80) 0xFFFFFFFD) ∧
    (∃ s : State, s.up = false) ∧ (∃ s : State, s.up = true ∧ s.blockAt 0x33 = .absent) ∧
    (∃ s : State, s.up = true ∧ (s.reg 0x0020).getLsbD 31 = true ∧ ∃ g, g < 16 ∧ (s.reg (lgCtl g)).getLsbD 31 = true ∧ (s.reg (lgCtl g)).getLsbD 29 = false) ∧
    (∃ s : State, s.up = true ∧ ¬((s.reg 0x0020).getLsbD 31 = true ∧ ∃ g, g < 16 ∧ (s.reg (lgCtl g)).getLsbD 31 = true ∧ (s.reg (lgCtl g)).getLsbD 29 = false)) ∧
    (∃ s : State, s.MemOk ∧ s.up = true ∧ s.reg (flTail 3 1) = 0xFFFFFFFF) ∧
    (∃ s : State, s.up = true ∧ (s.reg (lqCtl 63)).getLsbD 31 = true) ∧ (∃ s : State, s.up = true ∧ (s.reg (lqCtl 63)).getLsbD 31 = false) ∧
    (∃ s : State, s.up = true ∧ s.hasGroup 15 = true ∧ (s.reg (lgCtl 15)).getLsbD 31 = false) ∧
    (∃ s : State, s.up = true ∧ s.hasGroup 15 = true ∧ (s.reg (lgCtl 15)).getLsbD 31 = true) ∧
    (∃ (s : State) (v : Word), s.up = true ∧ s.hasGroup 15 = true ∧ (s.reg (lgCtl 15)).getLsbD 31 = true ∧ v.getLsbD 31 = true ∧ groupStateOf s 15 = 2 ∧
      1 ≤ bitsAt v 8 8 ∧ bitsAt v 8 8 ≤ bitsAt s.capsLink 16 8 ∧ 1 ≤ bitsAt (s.reg (lgCtl 15)) 8 8 ∧
      bitsAt (s.reg (lgCtl 15)) 8 8 ≤ bitsAt s.capsLink 16 8 ∧ bitsAt v 8 8 ≠ bitsAt (s.reg (lgCtl 15)) 8 8 ∧
      ∃ t, exec (.lgctlWrite 15 v) s = .next t ∧ t.tooNarrow 15 = false) ∧
    (∃ (s : State) (v : Word), s.up = true ∧ bitsAt v 30 2 = 0 ∧ v &&& 0xF000FFFF ∉ s.retired) ∧
    ∃ (s : State) (v : Word), s.up = true ∧ v &&& 0xF000FF00 ∉ s.retired ∧ s.unitPresent (v &&& 0xF000FF00) = true ∧ bitsAt v 30 2 = 3 ∧
      (s.die (bitsAt v 28 2)).clmask ≠ 0 ∧ (s.die (bitsAt v 28 2)).sliceLo ≠ 0 ∧ s.retired = [] ∧
      (∃ j, j < 4 ∧ j ≠ bitsAt v 8 8 ∧ s.hbm.getLsbD (4 * bitsAt v 28 2 + j) = true) := by
  refine ⟨fun i h => ?_, ⟨upLab [], .mk0, by decide +kernel⟩,
    ⟨upLab [], by decide +kernel, .inl (by decide), .inr (.inl ⟨3, 0x58, by decide, by decide, rfl⟩), .inr (.inr ⟨63, 0x80, by decide, by decide +kernel, by decide, rfl⟩)⟩,
    ⟨.reset, by decide +kernel⟩, ⟨upLab [], by decide +kernel⟩, ⟨upLab [(0x20, 0x80000001), (lgCtl 15, 0x80000000)], by decide +kernel, by decide +kernel, 15, by decide +kernel⟩,
    ⟨upLab [(lgCtl 15, 0x80000000)], by decide +kernel, fun h => absurd h.1 (by decide +kernel)⟩, ⟨upLab [(flTail 3 1, 0xFFFFFFFF)], labMem_wf, by decide +kernel⟩,
    ⟨upLab [(lqCtl 63, 0x80000001)], by decide +kernel⟩, ⟨upLab [], by decide +kernel⟩, ⟨upLab [], by decide +kernel⟩, ⟨upLab [(lgCtl 15, 0x80000000)], by decide +kernel⟩,
    ⟨upLab [(lgCtl 15, 0x80007F00), (lgStat 15, 0x80000000)], 0x80002000, by decide +kernel, by decide +kernel, by decide +kernel, by decide, by decide +kernel, by decide,
      by decide +kernel, by decide +kernel, by decide +kernel, by decide +kernel, of_next (by decide +kernel)⟩,
    ⟨upLab [], 0x10000305, by decide +kernel, by decide, by decide +kernel⟩, ⟨upLab [], 0xFFFF03FF, by decide +kernel, by decide +kernel, by decide +kernel, by decide, by decide +kernel, by decide +kernel, rfl, 2, by decide +kernel⟩⟩
  simp only [List.mem_cons, List.not_mem_nil, or_false] at h
  obtain rfl | rfl | rfl | rfl | rfl | rfl | rfl := h <;> exact ⟨_, upLab [], rfl, by unfold readPresent; decide +kernel, by decide +kernel⟩

/-! ### Links and time -/

/-- The lab with group 15 in a STATE. -/
def groupLab (st : Nat) (rs : List (Nat × Word)) : State := upLab ((lgCtl 15, 0x80000000) :: (lgStat 15, BitVec.ofNat 32 (st * 2 ^ 30)) :: rs)

/-- A link whose lanes are as given, in place of link n; the request of die 1 to change its step, with the restarts of its links. -/
def linkLab (n : Nat) (x : DieLink) (rs : List Nat := [0, 0, 0]) : State :=
  { upLab [] with links := (List.replicate 12 DieLink.mk0).set n x, dies := (List.replicate 4 Die.full).set 1 { Die.full with freqWant := some 2, restarts := rs } }

/-- A channel whose token was regenerated as often as given, but once within 1 ms. -/
def worn (n : Nat) : TokenChannel := { num := 79, gen := n, times := List.replicate n 5 ++ [0] }

theorem witness_LinksAndTime_links :
    (∃ (s : State) (x : DieLink), s.links[1]? = some x ∧ x.failed = false ∧ x.lanes.getLsbD 63 = true ∧ x.training = false ∧ widthOf (lanesLeft x 63) ≠ 0 ∧ ¬restartsAt s 1 3) ∧
    (∃ (s : State) (x : DieLink), s.links[1]? = some x ∧ x.failed = false ∧ x.lanes.getLsbD 63 = true ∧ x.training = true ∧ widthOf (lanesLeft x 63) ≠ 0 ∧ ¬restartsAt s 1 2) ∧
    (∃ (s : State) (x : DieLink), s.links[1]? = some x ∧ x.failed = false ∧ x.lanes.getLsbD 63 = true ∧ widthOf (lanesLeft x 63) = 0) ∧
    (∃ (s : State) (x : DieLink), s.links[1]? = some x ∧ x.failed = false ∧ x.lanes.getLsbD 63 = true ∧ x.training = true ∧ widthOf (lanesLeft x 63) ≠ 0 ∧ restartsAt s 1 2 ∧
      s.dies.length = 4 ∧ ∀ d ∈ s.dies, d.restarts.length = 3) ∧
    (∃ (s : State) (x : DieLink), s.links[11]? = some x ∧ x.training = true) ∧
    (∃ (s : State) (x : Die), s.dies[3]? = some x ∧ x.freqWant = some 3 ∧ ∀ p, p < 3 → (s.link (3 * 3 + p)).training = false) ∧
    (∃ (s : State) (x : Die), s.dies[1]? = some x ∧ x.freqWant = some 2 ∧ (s.link (3 * 1 + 2)).training = true) ∧
    (∃ (s : State) (x : Die), s.dies[3]? = some x ∧ (s.link (3 * 3)).training = false ∧ x.isolated = false) ∧
    (∃ (s : State) (x : Die), s.dies[3]? = some x ∧ ownsChannel x 0 ∧ (x.channels.find? fun c => c.num == 0) = none) ∧
    ∀ n ∈ [14, 15], ∃ (s : State) (x : Die) (c : TokenChannel), s.dies[3]? = some x ∧ ownsChannel x 79 ∧ (x.channels.find? fun c => c.num == 79) = some c ∧ c.failedOver = false ∧
      (c.times.countP fun u => decide (s.now < u + 16000000)) = n := by
  unfold restartsAt ownsChannel
  refine ⟨⟨linkLab 1 { lanes := 0xFFFFFFFFFFFFFF00 } [0, 0, 2], { lanes := 0xFFFFFFFFFFFFFF00 }, by decide +kernel⟩,
    ⟨linkLab 1 { training := true } [0, 0, 1], { training := true }, by decide +kernel⟩,
    ⟨linkLab 1 { lanes := 0xFF00000000000000 }, { lanes := 0xFF00000000000000 }, by decide +kernel⟩,
    ⟨linkLab 1 { lanes := 0x81FF000000000000, training := true } [0, 0, 2], { lanes := 0x81FF000000000000, training := true }, rfl, rfl, by decide, rfl, by decide +kernel,
      ⟨5, by decide +kernel⟩, rfl, by decide +kernel⟩,
    ⟨linkLab 11 { training := true }, { training := true }, by decide +kernel⟩,
    ⟨{ upLab [] with dies := List.replicate 4 { Die.full with freqWant := some 3 } }, { Die.full with freqWant := some 3 }, by decide +kernel⟩,
    ⟨linkLab 5 { training := true }, { Die.full with freqWant := some 2 }, by decide +kernel⟩,
    ⟨upLab [], .full, by decide +kernel⟩, ⟨upLab [], .full, by decide +kernel⟩, fun n h => ?_⟩
  simp only [List.mem_cons, List.not_mem_nil, or_false] at h
  obtain rfl | rfl := h
  · exact ⟨{ upLab [] with now := 16000000, dies := List.replicate 4 { Die.full with channels := [worn 14] } }, { Die.full with channels := [worn 14] }, worn 14, by decide +kernel⟩
  · exact ⟨{ upLab [] with now := 16000000, dies := List.replicate 4 { Die.full with channels := [worn 15] } }, { Die.full with channels := [worn 15] }, worn 15, by decide +kernel⟩

/-- Training of group 15 for a cause. -/
def trainCause (n : Nat) : GroupTrain := { group := 15, since := 0, sub := n, before := 9 }

theorem witness_LinksAndTime_groups :
    (∀ n ∈ [0, 1, 256], ∃ (s : State) (x : GroupTrain), s.groupUp.find? (fun t => t.group == 15) = some x ∧ groupStateOf s 15 = 1 ∧ s.tooNarrow 15 = false ∧ x.sub = n) ∧
    (∃ (s : State) (x : GroupTrain), s.groupUp.find? (fun t => t.group == 15) = some x ∧ groupStateOf s 15 = 1 ∧ x.since + 1600000000 < s.now) ∧
    (∀ st ∈ [1, 2], ∃ s : State, groupStateOf s 15 = st ∧ (∀ x ∈ s.optics, x.group ≠ 15) ∧ 127 < bitsAt s.capsLink 16 8 ∧ (∀ x ∈ s.recal, x.1 ≠ 15)) ∧
    (∃ s : State, (s.reg (lgStat 15)).getLsbD 28 = true ∧ (15, 3) ∈ s.lastFlit ∧ (∀ x ∈ s.lastFlit, x.1 = 15 → x = (15, 3)) ∧ 3 + 160000000 ≤ s.now) := by
  refine ⟨fun n h => ⟨{ groupLab 1 [] with groupUp := [trainCause n] }, trainCause n, rfl, (by decide +kernel : groupStateOf (groupLab 1 []) 15 = 1),
      (by decide +kernel : (groupLab 1 []).tooNarrow 15 = false), rfl⟩,
    ⟨{ groupLab 1 [] with now := 1600000001, groupUp := [trainCause 1] }, trainCause 1, by decide +kernel⟩, fun st h => ⟨groupLab st [], ?_⟩,
    ⟨{ groupLab 2 [(lgStat 15, 0x90000000)] with lastFlit := [(15, 3)], now := 160000003 }, by decide +kernel⟩⟩
  simp only [List.mem_cons, List.not_mem_nil, or_false] at h
  obtain rfl | rfl := h <;> exact ⟨by decide +kernel, no_mem rfl, by decide +kernel, no_mem rfl⟩

/-- Group 15 carries time; the port is on, in domain 5, group 15 its slave port; TBCTL as given. -/
def timeRegs (tbctl : Word) : List (Nat × Word) := [(lgStat 15, 0xA0000000), (lgCtl 15, 0x90000000), (0x70, 0x800F0005), (0x74, tbctl)]
def timeLab (tbctl : Word) (p : PtpPort) : State := { upLab (timeRegs tbctl) with ptp := p, tb := 1000, now := 16000000000 }

theorem witness_LinksAndTime_time :
    (∃ (s : State) (m : PtpMsg), s.up = true ∧ carriesTime s 15 ∧ m.domain ≠ bitsAt (s.reg 0x0070) 0 7) ∧
    (∃ (s : State) (m : PtpMsg), s.up = true ∧ carriesTime s 15 ∧ ¬slavePort s 15 ∧ m.kind ≠ .delayReq ∧ (s.reg 0x0070).getLsbD 31 = true ∧ m.domain = bitsAt (s.reg 0x0070) 0 7) ∧
    (∃ (s : State) (m : PtpMsg), s.up = true ∧ carriesTime s 15 ∧ ¬slavePort s 15 ∧ m.kind = .delayReq ∧ (s.reg 0x0070).getLsbD 31 = true ∧ m.domain = bitsAt (s.reg 0x0070) 0 7) ∧
    (∀ m ∈ [({ domain := 5, seq := 3, kind := .sync (some 17985) } : PtpMsg), { domain := 5, seq := 3, kind := .sync (some 985) }, { domain := 5, seq := 3, kind := .followUp 984 }],
      ∃ (s : State) (t1 t2 : Nat), s.up = true ∧ carriesTime s 15 ∧ slavePort s 15 ∧ (s.reg 0x0070).getLsbD 31 = true ∧ m.domain = bitsAt (s.reg 0x0070) 0 7 ∧ syncTimes s m t1 t2) ∧
    (∃ (s : State) (m : PtpMsg), s.up = true ∧ carriesTime s 15 ∧ slavePort s 15 ∧ (s.reg 0x0070).getLsbD 31 = true ∧ m.domain = bitsAt (s.reg 0x0070) 0 7 ∧ m.kind = .sync none) ∧
    (∃ (s : State) (m : PtpMsg) (t1 t2 t3 t4 : Nat), s.up = true ∧ carriesTime s 15 ∧ slavePort s 15 ∧ (s.reg 0x0070).getLsbD 31 = true ∧ m.domain = bitsAt (s.reg 0x0070) 0 7 ∧
      m.kind = .delayResp t4 ∧ s.ptp.reqAt = some t3 ∧ s.ptp.sync = some (t1, t2) ∧ m.seq = s.ptp.reqSeq) ∧
    (∃ s : State, (s.reg 0x0074).getLsbD 31 = true ∧ (s.reg 0x0074).getLsbD 30 = false ∧ s.tbLast + 4 * (16000000000 / 2 ^ min 7 (bitsAt (s.reg 0x0070) 12 4)) ≤ s.now) ∧
    (∃ s : State, (s.reg 0x0074).getLsbD 31 = true ∧ (s.reg 0x0074).getLsbD 30 = false ∧ 16 ≤ bitsAt (s.reg 0x0074) 0 16 ∧ bitsAt (s.reg 0x0074) 0 16 ≤ 65520) ∧
    ∀ (v : Word) (ok : Nat), (v, ok) ∈ [(0x40000000, 15), (0x80000000, 15), (0, 14), (0, 15)] → ∃ s : State, s.up = true ∧ (s.reg 0x0070).getLsbD 31 = true ∧
      s.ptp.at_ + 16000000000 / 2 ^ min 7 (bitsAt (s.reg 0x0070) 12 4) ≤ s.now ∧ s.reg 0x0074 = v ∧ s.ptp.good = true ∧ s.tbOk = ok ∧ s.tbLost = true ∧ carriesTime s 15 ∧
      (slavePort s 15 ↔ v ≠ 0x40000000) := by
  unfold carriesTime slavePort
  refine ⟨⟨timeLab 0 {}, { domain := 4, seq := 0, kind := .delayReq }, by decide +kernel⟩, ⟨timeLab 0x40000000 {}, { domain := 5, seq := 0, kind := .sync none }, by decide +kernel⟩,
    ⟨timeLab 0x40000000 {}, { domain := 5, seq := 0, kind := .delayReq }, by decide +kernel⟩, fun m h => ?_, ⟨timeLab 0 {}, { domain := 5, seq := 9, kind := .sync none }, by decide +kernel⟩,
    ⟨timeLab 0 { reqAt := some 7, sync := some (3, 5), reqSeq := 2 }, { domain := 5, seq := 2, kind := .delayResp 12 }, 3, 5, 7, 12, by decide +kernel⟩,
    ⟨{ timeLab 0x80000000 {} with now := 64000000000 }, by decide +kernel⟩, ⟨timeLab 0x80000010 {}, by decide +kernel⟩,
    fun v ok h => ⟨{ timeLab v { good := true } with tbOk := ok, tbLost := true }, ?_⟩⟩
  · simp only [List.mem_cons, List.not_mem_nil, or_false] at h
    obtain rfl | rfl | rfl := h
    · exact ⟨timeLab 0 {}, 17985, 1000, by decide +kernel, by decide +kernel, by decide +kernel, by decide +kernel, by decide +kernel, .inl ⟨rfl, rfl⟩⟩
    · exact ⟨timeLab 0 {}, 985, 1000, by decide +kernel, by decide +kernel, by decide +kernel, by decide +kernel, by decide +kernel, .inl ⟨rfl, rfl⟩⟩
    · exact ⟨timeLab 0 { syncAt := some 990, syncSeq := 3 }, 984, 990, by decide +kernel, by decide +kernel, by decide +kernel, by decide +kernel, by decide +kernel, .inr ⟨rfl, rfl, rfl⟩⟩
  · simp only [List.mem_cons, Prod.mk.injEq, List.not_mem_nil, or_false] at h
    obtain ⟨rfl, rfl⟩ | ⟨rfl, rfl⟩ | ⟨rfl, rfl⟩ | ⟨rfl, rfl⟩ := h <;> decide +kernel

/-- A flit header of a class from chip 7 to a chip: NFM1 and its place. -/
def headerTo (cls dst nfm1 seq : Nat) : BitVec 64 := BitVec.ofNat 64 (cls * 2 ^ 60 + dst * 2 ^ 40 + 7 * 2 ^ 20 + nfm1 * 2 ^ 16 + seq * 2 ^ 12)

/-- Group 15 up, packages 4 to 7 routed to it. -/
def flitLab : State := groupLab 2 [(0x10004, 0x8F8F8F8F)]

/-- Messages of the first four classes. -/
def aRead : FabMsg := .read 1 0 0x10040 16
def aWrite : FabMsg := .write 1 0 0x10040 16 0x8001 5 0
def anAtom : FabMsg := .atom 1 0 0x10040 .add [3, 4]
def anActive : FabMsg := .active 0 0 0x50000000 .sys 0 [1] 7 0 2
def aSplice : FabMsg := .splice 0 0 0x50000000 .sys [(7, 3), (0, 4)] 9 0 1
def aNotice : FabMsg := .notice 0 .sys

theorem witness_LinksAndTime :
    (∃ s : State, groupStateOf s 15 = 2 ∧ s.crcFails = [(15, 14)]) ∧ (∃ s : State, groupStateOf s 15 = 2 ∧ s.crcFails = [(15, 15)]) ∧
    (∃ (s : State) (h : BitVec 64), groupStateOf s 15 = 2 ∧ nextFlit s 15 h ∧ 6 ≤ hCls h ∧ hSeq h < hNfm1 h) ∧
    (∃ (s : State) (h : BitVec 64), groupStateOf s 15 = 2 ∧ nextFlit s 15 h ∧ hCls h = 4 ∧ (s.reg (lgStat 15)).getLsbD 29 = false) ∧
    (∀ c ∈ [3, 5], ∃ (s : State) (h : BitVec 64), groupStateOf s 15 = 2 ∧ nextFlit s 15 h ∧ hCls h = c ∧ 0 < hSeq h ∧ hSeq h < hNfm1 h) ∧
    (∀ m r, (m, r) ∈ [(aRead, Route.group 15), (aRead, .unreachable), (aNotice, .unreachable)] → ∃ (s : State) (h : BitVec 64), groupStateOf s 15 = 2 ∧ nextFlit s 15 h ∧ hCls h = msgClass m ∧
      hSeq h = hNfm1 h ∧ hDst h ≠ s.chip ∧ s.route (hDst h) = r) ∧
    (∀ m ∈ [aRead, aWrite, anAtom, anActive, aSplice], ∃ (s : State) (h : BitVec 64), s.MemOk ∧ groupStateOf s 15 = 2 ∧ nextFlit s 15 h ∧ hCls h = msgClass m ∧ hSeq h = hNfm1 h ∧
      hDst h = s.chip ∧ s.visit 0 0x10040 true false = .go 0x30040 ∧ s.visit 0 0x10040 false false = .go 0x30040 ∧ s.visit 0 0x10040 true true = .go 0x30040 ∧
      s.grainBusy 0 0x10040 = false ∧ Marks.read s.memPsn 0x30040 4 = 0 ∧ s.route (hSrc h) = .group 15 ∧ ∀ y ∈ s.msgs, y.parts = 0) := by
  have first : ∀ {s : State} {h : BitVec 64}, s.flitIn = [] → hSeq h = 0 → nextFlit s 15 h := fun h1 h2 => ⟨by omega, .inl ⟨h2, no_mem h1⟩⟩
  refine ⟨⟨{ flitLab with crcFails := [(15, 14)] }, by decide +kernel⟩, ⟨{ flitLab with crcFails := [(15, 15)] }, by decide +kernel⟩,
    ⟨flitLab, headerTo 6 0 15 0, by decide +kernel, first rfl (by decide), by decide +kernel⟩, ⟨flitLab, headerTo 4 0 0 0, by decide +kernel, first rfl (by decide), by decide +kernel⟩,
    fun c h => ⟨{ flitLab with flitIn := [{ group := 15, cls := c, dst := 0, src := 7, nfm1 := 15, next := 14, drop := false }] }, headerTo c 0 15 14, ?_⟩, ?_, ?_⟩
  · simp only [List.mem_cons, List.not_mem_nil, or_false] at h
    obtain rfl | rfl := h
    · exact ⟨by decide +kernel, ⟨by decide, .inr ⟨{ group := 15, cls := 3, dst := 0, src := 7, nfm1 := 15, next := 14, drop := false }, by decide⟩⟩, by decide⟩
    · exact ⟨by decide +kernel, ⟨by decide, .inr ⟨{ group := 15, cls := 5, dst := 0, src := 7, nfm1 := 15, next := 14, drop := false }, by decide⟩⟩, by decide⟩
  · intro m r h
    simp only [List.mem_cons, Prod.mk.injEq, List.not_mem_nil, or_false] at h
    obtain ⟨rfl, rfl⟩ | ⟨rfl, rfl⟩ | ⟨rfl, rfl⟩ := h
    · exact ⟨flitLab, headerTo 0 5 0 0, by decide +kernel, first rfl (by decide), by decide +kernel⟩
    · exact ⟨flitLab, headerTo 0 8 0 0, by decide +kernel, first rfl (by decide), by decide +kernel⟩
    · exact ⟨flitLab, headerTo 1 8 0 0, by decide +kernel, first rfl (by decide), by decide +kernel⟩
  · intro m h
    have page : flitLab.visit 0 0x10040 true false = .go 0x30040 ∧ flitLab.visit 0 0x10040 false false = .go 0x30040 ∧ flitLab.visit 0 0x10040 true true = .go 0x30040 ∧
        flitLab.grainBusy 0 0x10040 = false ∧ Marks.read flitLab.memPsn 0x30040 4 = 0 ∧ flitLab.route 7 = .group 15 ∧ ∀ y ∈ flitLab.msgs, y.parts = 0 := by decide +kernel
    have up : groupStateOf flitLab 15 = 2 := by decide +kernel
    simp only [List.mem_cons, List.not_mem_nil, or_false] at h
    obtain rfl | rfl | rfl | rfl | rfl := h
    · exact ⟨flitLab, headerTo 0 0 0 0, labMem_wf, up, first rfl (by decide), by decide, by decide, by decide +kernel, page⟩
    · exact ⟨flitLab, headerTo 0 0 0 0, labMem_wf, up, first rfl (by decide), by decide, by decide, by decide +kernel, page⟩
    · exact ⟨flitLab, headerTo 0 0 0 0, labMem_wf, up, first rfl (by decide), by decide, by decide, by decide +kernel, page⟩
    · exact ⟨flitLab, headerTo 2 0 0 0, labMem_wf, up, first rfl (by decide), by decide, by decide, by decide +kernel, page⟩
    · exact ⟨flitLab, headerTo 3 0 0 0, labMem_wf, up, first rfl (by decide), by decide, by decide, by decide +kernel, page⟩

/-! ### Power and bring-up -/

/-- The lab at a power limit: die 3 at a step, with a request. -/
def powerLab (d : Die) (rs : List (Nat × Word)) : State := { upLab rs with dies := (List.replicate 4 Die.full).set 3 d }

/-- A part with every unit, group 0 its only boot group. -/
def fullFuses : Fuses :=
  { hbm := 0xFFFF, clmask := List.replicate 4 0xFFFF, coremask := List.replicate 64 0xFFF, sliceLo := List.replicate 4 0xFFFFFFFF
    sliceHi := List.replicate 4 0xFFFFFFFF, capsLink := 0x03804040, bootmask := 1, bridge := none, isolated := [], badStack := [] }

/-- A slot that cannot be read. -/
def badImage : FwImage := { readable := false, header := [], body := [] }

/-- A package in reset with a STAGE and a code; 30 s have passed since the firmware of slot 0 began. -/
def lateLab (stage fail : Nat) : State :=
  { State.reset with mgmt := [(0x10, BitVec.ofNat 32 (stage * 2 ^ 28 + fail * 2 ^ 24))], flash := [badImage, badImage], now := 480000000000 }

/-- The lab's grid placed, named by ASID 0 and MGARG 0. -/
def mgLab (g : Workgroup) (rs : List (Nat × Word)) : State := regLab labWarp g labGrid .mk0 rs

/-- Group 0 up towards a host; window 15 shows the page at 0x10000 at host address 0x20000. -/
def hostLab : State :=
  upLab [(lgCtl 0, 0xA0000000), (lgStat 0, 0x80000000), (0x21E0, 0x80000000), (0x21E8, 0x20000), (0x21F0, 1), (0x21F4, 0x10000)]

/-- The page at 0x10000, closed to stores. -/
def closedPage : Bytes := Memory.setN (codePage [] 0) 0x20010 4 0x82000000

/-- An access of the lab that waits for an answer from package 7. -/
def remoteOp (act : MemAct) : Op := { labOp act .remote with acc := (labOp act .remote).acc.map fun x => { x with asid := 0, va := 0x10040, stamp := 0 } }

/-- Page 0x10000 as an alias of a page of package 7 (chip 7). -/
def aliasPage : Bytes := Memory.setN (Memory.setN (codePage [] 0) 0x20010 8 0xC6000000) 0x20018 8 0x700000001

def remoteLab (act : MemAct) : State := { upLab [] with mem := aliasPage, ops := [remoteOp act], now := 160000000 }

theorem witness_PowerAndBringUp :
    (∀ (x : Die) (p : Nat), (x, p) ∈ [({ Die.full with step := 3 }, 101), ({ Die.full with step := 4, freqWant := some 3 }, 95), ({ Die.full with step := 1 }, 94)] →
      ∃ s : State, s = powerLab x [(0x30, 0x00640000)] ∧ s.up = true ∧ s.dies[3]? = some x ∧ x.hot = false ∧ bitsAt (s.reg 0x0030) 16 12 = 100 ∧
        min 4 (bitsAt (s.reg 0x0030) (3 * 3) 3) < x.freqWant.getD x.step) ∧
    (∃ s : State, ∃ g ∈ s.wgs, (g.status = .placed ∨ g.status = .running) ∧ coreDie g.core = 0) ∧
    (∃ (s : State) (x : Die), s.dies[3]? = some x ∧ ∀ g ∈ s.wgs, g.status = .placed ∨ g.status = .running → coreDie g.core ≠ 3) ∧
    (∃ (s : State) (x : Die), s.dies[3]? = some x ∧ x.hot = false) ∧ (∃ (s : State) (x : Die), s.dies[3]? = some x ∧ x.hot = true) ∧
    (∃ s : State, s.powered = true) ∧ (∃ s : State, s.powered = true ∧ s.hotSince.find? (fun x => x.1 == 3) = some (3, 0) ∧ 0 + 16000000 ≤ s.now) ∧
    (∃ s : State, s.up = false ∧ s.powered = true ∧ s.picked = [] ∧ bitsAt (s.reg 0x0010) 28 3 = 0 ∧ bitsAt (s.reg 0x0010) 24 4 = 0) ∧
    (∀ n ∈ [0, 10], ∀ slot ∈ [0, 1], ∃ (s : State) (f : FwImage), s.up = false ∧ s.powered = true ∧ s.picked = [] ∧ bitsAt (s.reg 0x0010) 28 3 = 1 ∧ s.flash = [f, f] ∧
      verifyImage f s.svnMin ≠ 0 ∧ bitsAt (s.reg 0x0010) 24 4 = n ∧ s.slotRun = slot) ∧
    (∀ f ∈ [{ fullFuses with isolated := [3] }, { fullFuses with badStack := [12, 13, 14, 15] }, { fullFuses with badStack := [13, 14, 15] }, fullFuses],
      ∃ s : State, s.up = false ∧ s.powered = true ∧ bitsAt (s.reg 0x0010) 28 3 = 2 ∧ shippedFuses f = true ∧ s.retired = []) ∧
    (∀ j, j < 4 → ∃ b ∈ ({ fullFuses with badStack := [12, 13, 14, 15] } : Fuses).badStack, b.val = 4 * 3 + j) ∧
    (∀ d, d < 4 → ∃ j, j < 4 ∧ fullFuses.hbm.getLsbD (4 * d + j) = true ∧ ∀ b ∈ ({ fullFuses with badStack := [13, 14, 15] } : Fuses).badStack, b.val ≠ 4 * d + j) ∧
    (∃ s : State, s.up = false ∧ s.powered = true ∧ bitsAt (s.reg 0x0010) 28 3 = 3) ∧
    ∀ n, n ∈ [0, 10] → ∃ s : State, s.up = false ∧ s.powered = true ∧ 2 ≤ bitsAt (s.reg 0x0010) 28 3 ∧ s.bootAt + 480000000000 ≤ s.now ∧ bitsAt (s.reg 0x0010) 24 4 = n := by
  refine ⟨fun x p h => ⟨_, rfl, ?_⟩, ⟨upLab [], labWg, by decide +kernel⟩, ⟨upLab [], .full, by decide +kernel⟩, ⟨upLab [], .full, by decide +kernel⟩,
    ⟨powerLab { Die.full with hot := true } [], { Die.full with hot := true }, by decide +kernel⟩, ⟨groupLab 2 [], rfl⟩,
    ⟨{ groupLab 2 [] with hotSince := [(3, 0)], now := 16000000 }, by decide +kernel⟩, ⟨lateLab 0 0, by decide +kernel⟩,
    fun n h slot _ => ⟨{ lateLab 1 n with slotRun := slot }, badImage, ?_, rfl, rfl, ?_, rfl, by simp [verifyImage, badImage], ?_, rfl⟩,
    fun f h => ⟨lateLab 2 0, by decide +kernel, rfl, by decide +kernel, ?_, rfl⟩, fun j h => (by decide : ∀ j : Fin 4, ∃ b ∈ ({ fullFuses with badStack := [12, 13, 14, 15] } : Fuses).badStack, b.val = 4 * 3 + j.val) ⟨j, h⟩, fun d h => ⟨0, by omega, ?_⟩,
    ⟨lateLab 3 0, by decide +kernel⟩, fun n h => ⟨lateLab 2 n, ?_⟩⟩
  · simp only [List.mem_cons, Prod.mk.injEq, List.not_mem_nil, or_false] at h
    obtain ⟨rfl, rfl⟩ | ⟨rfl, rfl⟩ | ⟨rfl, rfl⟩ := h <;> decide +kernel
  · simp only [List.mem_cons, List.not_mem_nil, or_false] at h
    obtain rfl | rfl := h
    · exact (by decide +kernel : (lateLab 1 0).up = false)
    · exact (by decide +kernel : (lateLab 1 10).up = false)
  · simp only [List.mem_cons, List.not_mem_nil, or_false] at h
    obtain rfl | rfl := h
    · exact (by decide +kernel : bitsAt ((lateLab 1 0).reg 0x0010) 28 3 = 1)
    · exact (by decide +kernel : bitsAt ((lateLab 1 10).reg 0x0010) 28 3 = 1)
  · simp only [List.mem_cons, List.not_mem_nil, or_false] at h
    obtain rfl | rfl := h
    · exact (by decide +kernel : bitsAt ((lateLab 1 0).reg 0x0010) 24 4 = 0)
    · exact (by decide +kernel : bitsAt ((lateLab 1 10).reg 0x0010) 24 4 = 10)
  · simp only [List.mem_cons, List.not_mem_nil, or_false] at h
    obtain rfl | rfl | rfl | rfl := h <;> decide +kernel
  · interval_cases d <;> decide
  · simp only [List.mem_cons, List.not_mem_nil, or_false] at h
    obtain rfl | rfl := h <;> decide +kernel

/-! ### The host and management -/

/-- Accesses of the host to window 15: a read, a write of the sector's last byte, a read outside. -/
def hostRead : HostAcc := { group := 0, addr := 0x20040, len := 16, data := none }
def hostWrite : HostAcc := { group := 0, addr := 0x2004F, len := 1, data := some [0x5A] }
def hostPast : HostAcc := { group := 0, addr := 0x30000, len := 1, data := none }

theorem hostLab_regs : hostLab.up = true ∧ groupStateOf hostLab 0 = 2 ∧ (hostLab.reg (lgCtl 0)).getLsbD 29 = true ∧ (hostLab.reg 0x0080).getLsbD 0 = false := by
  decide +kernel

theorem host_decodes (m : Bytes) (a : HostAcc) (hg : a.group = 0) (ha : a.len ≠ 0) (p : List Nat := []) : windowsDecode { hostLab with mem := m, memPsn := p } a :=
  ⟨⟨hostLab_regs.1, ha, by rw [hg]; exact hostLab_regs.2.1, by rw [hg]; exact hostLab_regs.2.2.1⟩, .inr rfl, .inl hostLab_regs.2.2.2⟩

/-- Group 0 up towards a host, group 15 towards packages 4 to 7, MGAP at 0x580000000, window 15 in a package. -/
def mgapLab (chip : Word) : State :=
  upLab [(lgCtl 0, 0xA0000000), (lgStat 0, 0x80000000), (lgCtl 15, 0x80000000), (lgStat 15, 0x80000000), (0x10004, 0x8F8F8F8F), (0x84, 5), (0x80, 0x80000001),
    (0x21E0, 0x80000000), (0x21E4, chip), (0x21E8, 0x20000), (0x21F0, 1), (0x21F4, 0x10000)]

/-- A host's access to the management space of a chip of the card. -/
def slotRead (chip : Nat) : HostAcc := { group := 0, addr := 0x580000000 + chip * 2 ^ 25 + 0x84, len := 4, data := none }

theorem witness_HostAndManagementAccess_commands :
    (∃ s : State, s.up = true ∧ (s.reg 0x0040).getLsbD 27 = true) ∧ (∃ s : State, s.up = true ∧ (s.reg 0x0040).getLsbD 27 = false) ∧
    (∃ (s : State) (c : Word), s.up = true ∧ runsMg s 0 c ∧ namedGrid s c 0 ∧ bitsAt c 28 4 = 1) ∧
    (∃ (s : State) (c : Word), s.up = true ∧ runsMg s c c ∧ namedGrid s c 0 ∧ bitsAt c 28 4 = 2 ∧ ∀ g ∈ s.wgs, g.grid = 0 → g.byCmd = false) ∧
    (∃ (s : State) (c : Word), s.up = true ∧ runsMg s c c ∧ namedGrid s c 0 ∧ bitsAt c 28 4 = 2 ∧ ∃ g ∈ s.wgs, g.grid = 0 ∧ g.byCmd = true) ∧
    (∀ n ∈ [1, 2], ∃ (s : State) (c : Word), s.up = true ∧ runsMg s c c ∧ s.mgGrid (bitsAt c 0 13) = none ∧ bitsAt c 28 4 = n) ∧
    (∀ n ∈ [3, 4], ∃ (s : State) (c : Word), s.up = true ∧ runsMg s c c ∧ s.nonceBad = false ∧ bitsAt c 28 4 = n) ∧
    (∃ (s : State) (c : Word), s.up = true ∧ runsMg s c c ∧ s.nonceBad = true ∧ bitsAt c 28 4 = 3) ∧
    (∃ s : State, s.up = true ∧ (s.reg 0x00B0).getLsbD 30 = false ∧ groupStateOf s 15 = 2 ∧ (s.reg (lgCtl 15)).getLsbD 29 = false) ∧
    (∃ s : State, s.up = true ∧ (s.reg 0x00B0).getLsbD 30 = false ∧ groupStateOf s 15 ≠ 2) ∧
    (∃ s : State, (s.reg 0x00B0).getLsbD 30 = true ∧ s.pxSince + 16000000 ≤ s.now) ∧
    (∃ s : State, groupStateOf s 15 = 2 ∧ s.up = true ∧ plainReg s 0x84 0xFFFFFFFF) := by
  unfold namedGrid runsMg
  refine ⟨⟨mgLab labWg [(0x40, 0x18000000)], by decide +kernel⟩, ⟨mgLab labWg [], by decide +kernel⟩, ⟨mgLab labWg [(0x40, 0x18000000)], 0x18000000, by decide +kernel⟩,
    ⟨mgLab labWg [], 0x20000000, by decide +kernel⟩, ⟨mgLab { labWg with byCmd := true } [], 0x20000000, by decide +kernel⟩, fun n h => ?_, fun n h => ?_,
    ⟨upLab [(0x4C, 0xFF)], 0x30000000, by decide +kernel⟩, ⟨groupLab 2 [], by decide +kernel⟩, ⟨groupLab 1 [], by decide +kernel⟩,
    ⟨{ upLab [(0xB0, 0x40000001)] with now := 16000000 }, by decide +kernel⟩, ⟨groupLab 2 [], by decide +kernel, by decide +kernel, .inl (by decide)⟩⟩
  · simp only [List.mem_cons, List.not_mem_nil, or_false] at h
    obtain rfl | rfl := h
    · exact ⟨upLab [], 0x10001FFF, by decide +kernel⟩
    · exact ⟨upLab [], 0x20001FFF, by decide +kernel⟩
  · simp only [List.mem_cons, List.not_mem_nil, or_false] at h
    obtain rfl | rfl := h
    · exact ⟨upLab [], 0x30000007, by decide +kernel⟩
    · exact ⟨upLab [], 0x40000007, by decide +kernel⟩

/-- A line of a home slice whose HBM bytes are behind its own. -/
def dirtyLine : SliceLine := { die := 3, asid := 0, line := 0, key := physKey 3 0xFFFFFFF80, grain := 1, valid := 15, dirty := 1, under := 9 }

theorem witness_HostAndManagementAccess_apertures :
    (∃ s : State, s.MemOk ∧ s.up = true ∧ s.fitted 3 (physKey 3 (bitsAt (s.reg (maDie 3 0x58)) 0 20 * 2 ^ 20)) = false) ∧
    (∃ s : State, s.MemOk ∧ s.up = true ∧ s.fitted 3 (physKey 3 (bitsAt (s.reg (maDie 3 0x58)) 0 20 * 2 ^ 20 + 0xFFFFC)) = true ∧ s.slices = []) ∧
    (∃ (s : State) (l : SliceLine), s.MemOk ∧ s.up = true ∧ s.fitted 3 (physKey 3 (bitsAt (s.reg (maDie 3 0x58)) 0 20 * 2 ^ 20 + 0xFFFFC)) = true ∧
      s.sliceOf (physKey 3 (bitsAt (s.reg (maDie 3 0x58)) 0 20 * 2 ^ 20 + 0xFFFFC)) = some l ∧ ∀ x ∈ s.slices, x.key % 128 = 0) ∧
    (∃ (s : State) (a : HostAcc), s.up = true ∧ groupStateOf s a.group ≠ 2) ∧
    (∃ (s : State) (a : HostAcc), s.up = true ∧ groupStateOf s a.group = 2 ∧ (s.reg (lgCtl a.group)).getLsbD 29 = false) ∧
    (∀ g ∈ [0, 3], ∃ (s : State) (a : HostAcc), hostGroupUp s a ∧ s.aperture = true ∧ s.hostGroup = some g ∧ a.group.val = 0 ∧ a.len = 4 ∧ plainReg s a.addr 0xFFFFFFFF ∧
      a.data = some [1, 2, 3, 4]) ∧
    (∀ c ∈ [0, 7, 63], ∃ s : State, hostGroupUp s (slotRead c) ∧ apertureAt s 0x580000000 ∧ ((slotRead c).addr - 0x580000000) % 4 = 0 ∧ ((slotRead c).addr - 0x580000000) / 2 ^ 25 = c ∧
      s.chip % 64 = 0 ∧ (c = 7 → s.route (s.chip / 64 * 64 + c) = .group 15) ∧ (c = 63 → s.route (s.chip / 64 * 64 + c) = .unreachable)) ∧
    (∃ s : State, windowsDecode s hostPast ∧ ∀ n, n < 16 → ¬winHolds s n hostPast.addr) ∧
    (∀ c r, (c, r) ∈ [((7 : Word), Route.group 15), (8, .unreachable)] → ∃ s : State, s.MemOk ∧ windowsDecode s hostRead ∧ winHolds s 15 hostRead.addr ∧
      (∀ m, m < 15 → ¬winHolds s m hostRead.addr) ∧ bitsAt (winWord s 15 1) 0 20 = c.toNat ∧ c.toNat ≠ s.chip ∧ winBase s 15 = 0x20000 ∧ s.route c.toNat = r) := by
  refine ⟨⟨upLab [(maDie 3 0x58, 0xFFFFF)], labMem_wf, by decide +kernel⟩, ⟨upLab [(maDie 3 0x58, 0xFFF)], labMem_wf, by decide +kernel, by decide +kernel, rfl⟩,
    ⟨{ upLab [(maDie 3 0x58, 0xFFFF)] with slices := [dirtyLine] }, dirtyLine, labMem_wf, by decide +kernel⟩, ⟨hostLab, { hostRead with group := 3 }, by decide +kernel⟩,
    ⟨groupLab 2 [], { hostRead with group := 15 }, by decide +kernel⟩,
    fun g _ => ⟨{ hostLab with aperture := true, hostGroup := some g }, { group := 0, addr := 0x84, len := 4, data := some [1, 2, 3, 4] },
      ⟨hostLab_regs.1, by decide, hostLab_regs.2.1, hostLab_regs.2.2.1⟩, rfl, rfl, rfl, rfl, .inl (by decide), rfl⟩, fun c h => ⟨mgapLab 0, ?_⟩,
    ⟨hostLab, host_decodes (codePage [] 0) _ rfl (by decide), ?_⟩, fun c r h => ⟨mgapLab c, labMem_wf, ?_⟩⟩
  · unfold hostGroupUp apertureAt
    simp only [List.mem_cons, List.not_mem_nil, or_false] at h
    obtain rfl | rfl | rfl := h <;> decide +kernel
  · unfold winHolds; decide +kernel
  · unfold windowsDecode hostGroupUp winHolds
    simp only [List.mem_cons, Prod.mk.injEq, List.not_mem_nil, or_false] at h
    obtain ⟨rfl, rfl⟩ | ⟨rfl, rfl⟩ := h <;> decide +kernel

/-- A host read of another package that waits. -/
def waitingReq : DevReq := { use := .host 0x20040, addr := 0x10040, write := false, asid := 0, pieces := [{ chip := 7, size := 16, sent := 0 }] }

theorem witness_HostAndManagementAccess :
    (∀ a ∈ [hostRead, hostWrite], ∀ psn ∈ [[], [0xC010]], ∃ s : State, s.MemOk ∧ windowsDecode s a ∧ winHolds s 15 a.addr ∧ (∀ m, m < 15 → ¬winHolds s m a.addr) ∧
      bitsAt (winWord s 15 1) 0 20 = s.chip ∧ winBase s 15 = 0x20000 ∧ a.addr + a.len ≤ winBase s 15 + bitsAt (winWord s 15 4) 0 24 * 65536 ∧
      bitsAt (winWord s 15 6) 0 20 * 2 ^ 32 + bitsAt (winWord s 15 5) 16 16 * 2 ^ 16 = 0x10000 ∧ a.addr % 16 + a.len ≤ 16 ∧
      s.place 0 (a.addr - 0x10000) = .here (a.addr + 0x10000) 0 (a.addr - 0x10000) ∧ s.walkCheck 0 (a.addr - 0x10000) a.data.isSome false = .ok 0x86000000 ∧
      Marks.read s.memPsn 0x30040 16 = psn.length) ∧
    (∃ s : State, s.MemOk ∧ windowsDecode s hostWrite ∧ winHolds s 15 hostWrite.addr ∧ (∀ m, m < 15 → ¬winHolds s m hostWrite.addr) ∧ s.walkCheck 0 0x1004F true false = .fail 0x11) ∧
    (∀ act ∈ [MemAct.load, .store], ∃ (s : State) (o : Op) (x : Access) (d z : Nat) (sg sl : Bool), s.ops[0]? = some o ∧ o.acc[0]? = some x ∧ x.stage = .remote ∧ x.stamp + 160000000 ≤ s.now ∧
      s.place x.asid x.va = .foreign 7 0 0x10040 ∧ o.kind = .mem act d z sg sl) ∧
    ∃ (s : State) (r : DevReq) (p : DevPiece), s.devReqs[0]? = some r ∧ r.use = .host 0x20040 ∧ r.pieces = [p] ∧ p.back = false ∧ p.sent + 160000000 ≤ s.now := by
  refine ⟨fun a h psn hp => ⟨{ hostLab with memPsn := psn }, labMem_wf, host_decodes (codePage [] 0) _ ?_ ?_ psn, ?_⟩,
    ⟨{ hostLab with mem := closedPage }, (by decide +kernel : Memory.wf closedPage = true), host_decodes _ _ rfl (by decide), ?_⟩,
    fun act h => ⟨remoteLab act, remoteOp act, _, _, _, _, _, rfl, rfl, rfl, (by decide : 0 + 160000000 ≤ 160000000), ?_, rfl⟩,
    ⟨{ upLab [] with devReqs := [waitingReq], now := 160000000 }, waitingReq, { chip := 7, size := 16, sent := 0 }, rfl, rfl, rfl, rfl, by decide⟩⟩
  · simp only [List.mem_cons, List.not_mem_nil, or_false] at h
    obtain rfl | rfl := h <;> rfl
  · simp only [List.mem_cons, List.not_mem_nil, or_false] at h
    obtain rfl | rfl := h <;> decide
  · unfold winHolds
    simp only [List.mem_cons, List.not_mem_nil, or_false] at h hp
    obtain rfl | rfl := h <;> obtain rfl | rfl := hp <;> decide +kernel
  · unfold winHolds; decide +kernel
  · simp only [List.mem_cons, List.not_mem_nil, or_false] at h
    obtain rfl | rfl := h <;> decide +kernel

/-! ### Encodings, the step, memory -/

theorem witness_DecodeEncode : (∃ i : Instr, i.isWord = true ∧ wellFormed i = true) ∧
    ∃ (ws : List Nat) (i : Instr), (∀ w ∈ ws, w < 2 ^ 32) ∧ decodeWords ws = .ok i :=
  ⟨⟨.smoviLiteral 63 0xFFFFFFFF, by decide, by decide⟩, [0x84382000, 0x00010000], .smoviLiteral 7 0x10000, by decide, by decide +kernel⟩

/-- The lab with SMOVI s7, 0x10000 at its PC, picked. -/
def stepLab : State := { lab labWarp labWg labGrid with mem := Memory.setN (codePage [] 0) 0x30000 8 0x1000084382000, picked := [0] }

theorem witness_StepRunsDecoded : ∃ (s : State) (c : Ctx) (i : Instr), s.picked = [0] ∧ s.agenda = [] ∧ s.ctxAt 0 = some c ∧ c.w.psnTrap = none ∧ s.bpAt c = none ∧
    s.debugLets c = true ∧ s.mapDue c = false ∧ i.isWord = true ∧ wellFormed i = true ∧ encode i = [0x84382000, 0x00010000] ∧
    s.place c.gr.asid (c.w.pc.toNat % 2 ^ 52) = .here 0x30000 0 0x10000 ∧ (Memory.word s.mem 0x30000).toNat = 0x84382000 ∧
    s.place c.gr.asid ((c.w.pc.toNat + 4) % 2 ^ 52) = .here 0x30004 0 0x10004 ∧ (Memory.word s.mem 0x30004).toNat = 0x00010000 :=
  ⟨stepLab, labCtx labWarp, .smoviLiteral 7 0x10000, by decide +kernel⟩

/-- The lab, 1 ns later. -/
def laterLab : State := { lab labWarp labWg labGrid with agenda := [.elapse 16 16] }

theorem witness_StepKeepsMemoryFormAndUnits : ∃ s t : State, s.MemOk ∧ s.UnitsOk ∧ step s = .next t ∧ t.now = s.now + 16 ∧ t.mem ≠ [] :=
  ⟨laterLab, ({ laterLab with agenda := [] } : State).elapse 16 16, labMem_wf, by unfold State.UnitsOk; decide +kernel, rfl, rfl, by decide +kernel⟩

theorem witness_MemoryReadAfterWrite : ∃ m p : Bytes, m ≠ [] ∧ Memory.wf m = true ∧ Memory.wf p = true ∧ m = Memory.setN [] 0xFFFFFFFFFF 2 0x100 ∧ p = [(2 ^ 40, 1)] := by
  refine ⟨_, _, ?_, ?_, ?_, rfl, rfl⟩ <;> decide

theorem witness_WordsLeaveHomeMemory : ∃ (i : Instr) (s t : State), i.isWord = true ∧ exec i s = .next t ∧ i.ctorIdx = (Instr.st 2 atV0 .b32 (.global .sys)).ctorIdx :=
  ⟨.st 2 atV0 .b32 (.global .sys), lab (addrWarp 1) labWg labGrid, _, rfl, rfl, rfl⟩

/-! ### Decoding: the lines that the spec encodes (R166, R181 to R199, R227, R257; chapters 16 to 18), and words it calls illegal -/

theorem test_decode_lane_lines : ∀ p ∈ [([0x06081840], Instr.add 2 3 4 .always), ([0x041407FD], .movi 5 0x7FD), ([0x04140800, 0x12345678], .moviLiteral 5 0x12345678),
    ([0x2A0C2051], .bfeS 3 4 5 .always), ([0x2E1C4092], .sel 7 8 9 .always 2), ([0x30441841], .cmpS32 .lt 1 3 4 .always), ([0x320C0820], .pand 3 1 2 .always),
    ([0x38204093], .shflXor 8 8 9 .always), ([0x3A0C1002], .voteBallot 3 2 .always)], decodeWords p.1 = .ok p.2 := by decide +kernel

theorem test_decode_float_lines : ∀ p ∈ [([0x462858CC], Instr.ffma 10 11 12 .notP0), ([0x4CD00820], .fcmp .un 4 1 2 .always), ([0x5A1C3110], .cvt 7 6 1 .bf16 .always .rn),
    ([0x5E50A960], .dot4Fp8 20 21 22 .always), ([0x62304090], .n4pack 12 8 9 .always), ([0x64346000], .n4unp 13 12 .always)], decodeWords p.1 = .ok p.2 := by decide +kernel

theorem test_decode_lane_memory_lines : ∀ p ∈ [
    ([0x7224310C, 0x64000000, 0x40], Instr.st 9 { addr := 6, prod := 2, cons := 1, off := some 0x40, grd := .always } .b32 (.global .die)),
    ([0x70501FFC, 0x36000000, 0x10], .ld 20 { addr := 3, prod := 15, cons := 15, off := some 16, grd := .always } .b128 .priv),
    ([0x70282190, 0x85000000], .ld 10 { addr := 4, prod := 3, cons := 2, off := none, grd := .always } .b64 (.global .pkg)),
    ([0x76141A7C, 0x24000000, 0x100], .sts 5 { addr := 3, prod := 4, cons := 15, off := some 0x100, grd := .always } .b32 .wg),
    ([0x781037F8, 0x64900000], .atom 4 { addr := 6, prod := 15, cons := 15, off := none, grd := .always } .fadd .die),
    ([0x7C3010FC, 0xA5000000, 8], .atomcas 12 { addr := 2, prod := 1, cons := 15, off := some 8, grd := .always } .b64 .sys)], decodeWords p.1 = .ok p.2 := by
  decide +kernel

theorem test_decode_scalar_lines : ∀ p ∈ [([0x82188281], Instr.sadd 3 4 5), ([0x82304186], .sdivu 6 2 3), ([0x8228A502], .ssub 5 5 10), ([0x82300000], .smov 6 0),
    ([0x84280004], .smovi 5 4), ([0x8820C01C], .sst 4 6 .b32 .die none), ([0x8C012010], .swr 9 0x10), ([0x8E280000], .emrd 5), ([0x8E00A001], .emwr 5),
    ([0x8E004002], .sfmt 2), ([0x8E000003, 0x11], .sfmtLiteral 0x11), ([0x8E300004], .sfmtrd 6)], decodeWords p.1 = .ok p.2 := by decide +kernel

theorem test_decode_control_lines : ∀ p ∈ [([0x9E000000], Instr.ret), ([0x9E000001], .join), ([0x9C008010], .split false 0 16 16), ([0xA0000000], .snop), ([0xA0000001], .yield),
    ([0xA0000002], .exit), ([0xA0000004], .rtt), ([0xA0004186], .temit 2 3), ([0xA0A00007], .time 20)], decodeWords p.1 = .ok p.2 := by decide +kernel

theorem test_decode_key_lines : ∀ p ∈ [([0xB0102000], Instr.kfork 2 1), ([0xB2182100], .kjoin 3 1 2), ([0xB4200000], .krel 4), ([0xB6004004], .kwait 2 .pkg), ([0xB8000005], .kall .sys),
    ([0xBA002A05], .ksend 1 20 .sys), ([0xBC28C008], .krecvTry 5 6), ([0xBE386000], .kqry 7 3), ([0xC0290003], .ksteal 5 8 .die), ([0xC2008000], .binit 0 4),
    ([0xC401E000], .barr 0 15), ([0xC6006008], .bwait 0 3 true), ([0xC8484000], .bqry 9 2), ([0xCA508298], .mcjoin 10 4 5 3), ([0xCC580018], .mcleave 11 3),
    ([0xCE100080], .role 2 1)], decodeWords p.1 = .ok p.2 := by decide +kernel

theorem test_decode_message_lines : ∀ p ∈ [([0xD0A2C221], Instr.mcld 20 22 1 2 1 none), ([0xD263046F], .amsend 12 24 2 6 15), ([0xD472127F], .nred 14 16 .addF32 7 15 none),
    ([0xD48259FF, 0x03B9ACA0], .nred 16 18 .arrive 15 15 (some 62500000)), ([0xD6F0809F], .launch 30 .pkg 9 15)], decodeWords p.1 = .ok p.2 := by decide +kernel

theorem test_decode_engine_lines : ∀ p ∈ [([0xDA01C032], Instr.tlda 0 14 3 2 none), ([0xDC01E032], .tldb 0 15 3 2 none), ([0xDE0800FF], .mma 1 0 0 15 15 none),
    ([0xE20A005F], .tst 1 16 5 15 none), ([0xE60020FF], .ascan 0 1 0 15 15), ([0xEA01603F], .cst 0 11 3 15), ([0xECC180F1], .cpyLd 24 12 15 1 none),
    ([0xF60280FF], .rinit 0 20), ([0xF801001F], .rputAcq 0 8 1), ([0xFA01002F], .rgetAcq 0 8 2), ([0xFA0102F3], .rgetRel 0 8 3)], decodeWords p.1 = .ok p.2 := by decide +kernel

/-- R163, R164, R168: two words that are always illegal, an unassigned uniform op, ADD with sub = 01. -/
theorem test_illegal_words : ∀ p ∈ [(0x00000000, DecodeError.unassignedOp), (0xFFFFFFFF, .unassignedOp), (0xA2000000, .unassignedOp), (0x06000001, .badSub)],
    decodeWords [p.1] = .error p.2 := by decide +kernel

/-! ### Operands that a word may not hold -/

/-- An instruction that breaks each check of WellFormed, and is refused: CVT's element (R213), RED.xchg (R166), pairs past s63 (R183, R199, R229), SPLIT's offsets
(R162), k15 (R231, R233), KSTEAL.wg (R248), AMSEND's handler and payload (R251), descriptors and ring operands (R258). -/
theorem test_ill_formed : ∀ i ∈ [Instr.cvt 0 0 1 .f32 .always .rn, .cvt 0 0 2 .f16 .always .rn, .red 0 atV0 .xchg .wg, .sld 63 0 .b64 .wg none, .sld 0 63 .b32 .wg none,
    .sst 63 0 .b64 .wg none, .sst 0 63 .b32 .wg none, .split false 0 0 1, .split false 0 1 0, .time 63, .kfork 15 0, .kjoin 15 0 0, .krel 15, .ksend 0 63 .wg,
    .ksteal 0 0 .wg, .mcld 63 0 0 0 0 none, .amsend 63 0 1 0 0, .amsend 0 57 1 0 0, .amsend 0 0 0 0 0, .nred 63 0 .arrive 0 0 none, .launch 63 .wg 0 0,
    .cpyLd 63 0 0 0 none, .cpySt 0 61 0 0 none, .cpysLd 63 0 0 0 0, .cpysSt 0 61 0 0 0, .cpyc 63 0 0 0 none, .cpyg 0 61 0 0 none, .cpyx 63 0 0 0 none, .rinit 0 62],
    wellFormed i = false := by decide

/-! ### Worked examples of the spec -/

/-- The lab's warp after one instruction, from w. -/
def ran (i : Instr) (w : Warp) : Warp :=
  match exec i (lab w labWg labGrid) with
  | .next t => t.warps.headD labWarp
  | _ => labWarp

/-- The lab's warp with the words xs in lane 0 of v4, v5, v6, v7 and the format word f. -/
def laneWarp (f : BitVec 16) (xs : List Word) : Warp :=
  { labWarp with fmt := f, v := (List.replicate 4 LaneReg.zero ++ xs.map fun (x : Word) => { val := x :: List.replicate 31 0, psn := 0 }) ++ List.replicate 120 LaneReg.zero }

/-- Lane 0 of vd and the flags after one instruction, issued with lane 0 alone acting. -/
def lane0 (i : Instr) (d : Nat) (f : BitVec 16) (xs : List Word) : Word × Word :=
  let w := ran i { laneWarp f xs with emask := 1 }
  ((w.v.getD d LaneReg.zero).val.headD 0, w.aflags)

/-- The lane example of chapter 9: BFE.s of bits 9:4. -/
theorem test_bfe_example : lane0 (.bfeS 3 4 5 .always) 3 0 [0xF30, 0x604] = (0xFFFFFFF3, 0) := by decide +kernel

/-- The rows of R214's table: the element, the source, the mode, the destination format, the result and the flags. -/
theorem test_cvt_to_integers : ∀ p ∈ [(0x3FC00000, (0 : Fin 4), CvtFmt.f32, Rm.rn, 0x700, 2, 8), (0x3FC00000, 0, .f32, .rz, 0x700, 1, 8), (0xC0200000, 0, .f32, .rn, 0x500, 0xFE, 8),
    (0x43960000, 0, .f32, .rn, 0x500, 0x7F, 0x20), (0x7E, 0, .e5m2, .rn, 0x800, 0, 1), (0xFFFFFFFF, 0, .u32, .rz, 0x700, 0x7FFFFFFF, 0x20)],
    lane0 (.cvt 3 4 p.2.1 p.2.2.1 .always p.2.2.2.1) 3 p.2.2.2.2.1 [p.1] = p.2.2.2.2.2 := by decide +kernel
theorem test_cvt_to_floats : ∀ p ∈ [(0x01000001, (0 : Fin 4), CvtFmt.s32, Rm.rn, 0x000, 0x4B800000, 8), (0x01000001, 0, .s32, .ru, 0x000, 0x4B800001, 8),
    (0x7C00, 0, .f16, .rn, 0x300, 0x7F, 0x20), (0x00010000, 1, .bf16, .rn, 0x000, 0x00010000, 0), (0x43F40000, 0, .f32, .rn, 0x300, 0x7F, 8),
    (0x44000000, 0, .f32, .rn, 0x300, 0x7F, 0x28), (0x47800000, 0, .f32, .rn, 0x400, 0x7B, 0x28), (0x3A800000, 0, .f32, .rn, 0x300, 0, 0xC), (0xFF800000, 0, .f32, .rn, 0x400, 0xFC, 0)],
    lane0 (.cvt 3 4 p.2.1 p.2.2.1 .always p.2.2.2.1) 3 p.2.2.2.2.1 [p.1] = p.2.2.2.2.2 := by decide +kernel

/-- The example after R217: DOT2.bf16 of 1.0, 2.0 and 3.0, 0.5 onto 1.5, and SCLX by 1. -/
theorem test_dot2_example : lane0 (.dot2Bf16 4 5 6 .always) 4 0 [0x3FC00000, 0x40003F80, 0x3F004040] = (0x40B00000, 0) := by decide +kernel
theorem test_sclx_example : lane0 (.sclx 4 4 7 .always) 4 0 [0x40B00000, 0, 0, 0x807E] = (0x40B00000, 0) := by decide +kernel

/-- The block of R91's example, in a register (R218). -/
def blockWarp : Warp :=
  { labWarp with v := labWarp.v.set 4 { val := [0x0000F983, 0x80000800, 0, 0, 0xC57E] ++ List.replicate 27 0, psn := 0 } }

/-- That block unpacked: elements 0 to 15, and NFMT. -/
theorem test_n4unp_example : ((((ran (.n4unp 5 4 .always) blockWarp).v.getD 5 LaneReg.zero).val.take 16), (ran (.n4unp 5 4 .always) blockWarp).aflags) =
    ([0, 0x40B00000, 0xC0600000, 0xBF000000, 0, 0, 0, 0, 0, 0, 0xBF800000, 0, 0, 0, 0, 0], 0x10) := by decide +kernel

/-- The example of R220: eight elements and zeros, scale 1.0. -/
def packWarp : Warp :=
  { labWarp with
    v := (labWarp.v.set 8 { val := [0x40400000, 0x41A00000, 0xC1100000, 0x3F800000, 0x40266666, 0xBF000000] ++ List.replicate 24 0 ++ [0x40800000, 0x42C80000], psn := 0 }).set 9
      { val := 0x7F :: List.replicate 31 0, psn := 0 } }

theorem test_n4pack_example : ((((ran (.n4pack 12 8 9 .always) packWarp).v.getD 12 LaneReg.zero).val.take 6), (ran (.n4pack 12 8 9 .always) packWarp).aflags) =
    ([0x0003198A, 0, 0, 0x8C000000, 0x657F, 0], 0x28) := by decide +kernel

/-- The example of R181: s6 of SDIVU by zero. -/
theorem test_sdivu_by_zero : ((ran (.sdivu 6 2 3) { labWarp with s := labWarp.s.set 2 5 }).s.getD 6 0) = 0xFFFFFFFF := by decide +kernel

/-- The taken lanes of R191's example, and its stack. -/
def takenWarp : Warp :=
  { labWarp with
    emask := 0xFF
    stack := [{ pc := 0x10040, mask := 0xFFFFFF00, fmt := 0, kind := 2, cause := 0 }, { pc := 0x10080, mask := 0xFFFFFFFF, fmt := 0, kind := 1, cause := 0 }] }

/-- They leave by EXIT, and PATH is popped. -/
theorem test_exit_example : (ran .exit takenWarp).pc = 0x10040 ∧ (ran .exit takenWarp).emask = 0xFFFFFF00 ∧
    (ran .exit takenWarp).stack.map StackEntry.mask = [0xFFFFFF00] := by decide +kernel

/-- The warp of R195's example: OF is set and enabled, at PC 0x2010. -/
def fencedWarp : Warp := ran .tfence { labWarp with pc := 0x2010, aflags := 0x0003000A }

theorem test_tfence_example : fencedWarp.s.drop 62 = [0x2010, 0x82] ∧
    fencedWarp.stack = [{ pc := 0x2014, mask := 0xFFFFFFFF, fmt := 0, kind := 4, cause := 0x82 }] := by decide +kernel

end Sys2Proof.Tests
end

section
/-! Special registers (R77 to R79): the warp that an SRD and an SWR leave, and the statement about them. -/

namespace Sys2Proof.Claims

open Sys2Proof Sys2Proof.Machine

/-- An instruction whose meaning is to change its warp and retire leaves that warp, moved on to the next instruction. -/
theorem leavesWarp_of_exec_eq_retire {i : Instr} {s : State} {c : Ctx} {f : Ctx → Warp} (h : Issues i s c) (he : exec i s = retire i s f) :
    LeavesWarp i s ((f c).next i) := he.trans (retire_legal h.1 h.2 f)

/-- In the state an instruction leaves, the entry of the issuing warp is the warp it leaves. -/
theorem getElem?_cur_withWarp {i : Instr} {s : State} {c : Ctx} (h : Issues i s c) (w : Warp) : (withWarp s w).warps[s.cur]? = some w := by
  obtain ⟨hcur, -⟩ := issuer_all h.1
  exact List.getElem?_set_self (List.getElem?_eq_some_iff.1 hcur).1

/-- The table of R77 in the model and in the statement's words is one table. -/
theorem special_eq_srdWord (s : State) (c : Ctx) (n : Nat) : s.special c n = srdWord s c n := rfl

/-- An unassigned number reads 0 (R78). -/
theorem srdWord_of_not_assignedNumber (s : State) (c : Ctx) {n : Nat} (h : assignedNumber n = false) : srdWord s c n = 0 := by
  unfold srdWord
  dsimp only
  split
  -- the row of every number that the table does not list, then the listed ones
  case h_30 => rfl
  all_goals exact absurd h (by decide)

/-- The value goes to s(d), whose poison mark is cleared; only SRD of CLKLO writes the latch (R79). -/
theorem srd_leavesWarp {d : Fin 64} {n : BitVec 13} {s : State} {c : Ctx} (h : Issues (.srd d n) s c) :
    LeavesWarp (.srd d n) s { goesOn c.w 4 with
      s := c.w.s.set d (srdWord s c n.toNat), sPsn := (c.w.setS d (srdWord s c n.toNat) false).sPsn
      clkLatch := if n.toNat = 0x18 then BitVec.ofNat 32 ((s.core c.g.core).clk / 2 ^ 32) else c.w.clkLatch } := by
  have leaves := leavesWarp_of_exec_eq_retire h (exec_srd d n s)
  rw [special_eq_srdWord] at leaves
  split_ifs at leaves ⊢ <;> exact leaves

/-- Only the number of AFLAGS writes, and only its bits 22:16 and 6:0 (R78). -/
theorem swr_leavesWarp {a : Fin 64} {n : BitVec 13} {s : State} {c : Ctx} (h : Issues (.swr a n) s c) :
    LeavesWarp (.swr a n) s { goesOn c.w 4 with aflags := if n.toNat = 0x10 then c.w.sreg a &&& 0x007F007F else c.w.aflags } := by
  have leaves := leavesWarp_of_exec_eq_retire h (exec_swr a n s)
  split_ifs at leaves ⊢ <;> exact leaves

/-- Settles O14: SRD and SWR each retire with one changed warp, and SRD's table has nothing at an unassigned number. -/
theorem specialRegistersReadAndWrite : Obligations.SpecialRegistersReadAndWrite := by
  refine ⟨fun d n s c h => ⟨_, srd_leavesWarp h, fun r hr => getLsbD_setS c.w d _ false hr⟩, fun d n s c h unassigned => ?_, fun a n s c => swr_leavesWarp⟩
  refine ⟨_, srd_leavesWarp h, ?_⟩
  rw [getElem?_cur_withWarp h, srdWord_of_not_assignedNumber s c unassigned]
  rfl

end Sys2Proof.Claims
end

section
/-! Killing a warp and what follows its end (R169, R250, R381, R384, R385), seen through what a kill leaves to be observed. -/

namespace Sys2Proof.Claims

open Sys2Proof Sys2Proof.Machine

/-- What the statements about a kill observe: home memory, a management register below those of the dies (R351; the package error log lies
there), whether each warp runs, and each grid's sticky error. -/
structure KillView where
  mem : Bytes
  packageReg : Word
  statuses : List WarpStatus
  errors : List Bool

def killView (ma : Fin 0x1000000) (s : State) : KillView :=
  { mem := s.mem, packageReg := s.reg ma, statuses := s.warps.map Warp.status, errors := s.grids.map Grid.error }

section

variable {ma : Fin 0x1000000}

/-! ### Updates under the view -/

/-- Changing an entry in what the mapped function does not see. -/
theorem map_modify_of_invariant {α β : Type} {g : α → β} {f : α → α} (h : ∀ a, g (f a) = g a) (l : List α) (i : Nat) :
    (l.modify i f).map g = l.map g := by
  apply List.ext_getElem?; intro j
  simp only [List.getElem?_map, List.getElem?_modify]
  cases l[j]? with
  | none => rfl
  | some a => by_cases hj : i = j <;> simp [hj, h]

/-- Changing an entry so that the mapped function gives b there. -/
theorem map_modify_of_const {α β : Type} {g : α → β} {f : α → α} {b : β} (h : ∀ a, g (f a) = b) (l : List α) (i : Nat) :
    (l.modify i f).map g = (l.map g).set i b := by
  apply List.ext_getElem?; intro j
  simp only [List.getElem?_map, List.getElem?_modify, List.getElem?_set']
  cases l[j]? with
  | none => by_cases hj : i = j <;> simp [hj]
  | some a => by_cases hj : i = j <;> simp [hj, h]

theorem killView_modWarp {f : Warp → Warp} (h : ∀ w, (f w).status = w.status) (s : State) (i : Nat) : killView ma (s.modWarp i f) = killView ma s := by
  simp only [killView, modWarp_warps, map_modify_of_invariant h]; rfl

theorem killView_modGrid {f : Grid → Grid} (h : ∀ gr, (f gr).error = gr.error) (s : State) (i : Nat) : killView ma (s.modGrid i f) = killView ma s := by
  simp only [killView, modGrid_grids, map_modify_of_invariant h]; rfl

/-- A workgroup is not in the view. -/
theorem killView_modWg (s : State) (i : Nat) (f : Workgroup → Workgroup) : killView ma (s.modWg i f) = killView ma s := rfl

theorem killView_modWarp_status {f : Warp → Warp} {st : WarpStatus} (h : ∀ w, (f w).status = st) (s : State) (i : Nat) :
    killView ma (s.modWarp i f) = { killView ma s with statuses := (killView ma s).statuses.set i st } := by
  simp only [killView, modWarp_warps, map_modify_of_const h]; rfl

theorem killView_modGrid_error {f : Grid → Grid} {e : Bool} (h : ∀ gr, (f gr).error = e) (s : State) (i : Nat) :
    killView ma (s.modGrid i f) = { killView ma s with errors := (killView ma s).errors.set i e } := by
  simp only [killView, modGrid_grids, map_modify_of_const h]; rfl

/-- Steps that each keep the view keep it together. -/
theorem killView_foldl {β : Type} {f : State → β → State} (h : ∀ s b, killView ma (f s b) = killView ma s) (l : List β) (s : State) :
    killView ma (l.foldl f s) = killView ma s := by
  induction l generalizing s with
  | nil => rfl
  | cons b l ih => rw [List.foldl_cons, ih, h]

/-- The memory error log of a die lies above the package's registers (R351, R398). -/
theorem killView_logMem (s : State) (d kind cause asid seq : Nat) (place : Word) (addr : Nat) (info info2 : Word) :
    killView ma (s.logMem d (recordWords kind cause asid seq place addr info info2)) = killView ma s := by
  obtain ⟨m, hm, entered, full⟩ := logTo_spec s (wp := maDie d 0x80) (rp := maDie d 0x84) (lost := maDie d 0x88) (base := maDie d 0x1000)
    (ws := recordWords kind cause asid seq place addr info info2) (Nat.le_refl 8) (by simp only [maDie]; omega)
  have below := ma.isLt
  have reg : ({ s with mgmt := m } : State).reg ma = s.reg ma := by
    by_cases room : (s.reg (maDie d 0x80) - s.reg (maDie d 0x84)).toNat < 64
    · exact (entered room).2.2 ma (by simp only [maDie]; omega) (by simp only [maDie]; omega)
    · exact (full (by omega)).2 ma (by simp only [maDie]; omega)
  rw [State.logMem, hm]
  exact congrArg (fun r => { killView ma s with packageReg := r }) reg

/-! ### The end of a warp (R191, R250, R381) -/

theorem killView_leaveSets (s : State) (chip : Option Nat) (i : Nat) : killView ma (s.leaveSets chip i) = killView ma s := by
  have statuses : (s.leaveSets chip i).warps.map Warp.status = s.warps.map Warp.status := by
    rw [State.leaveSets, List.map_map]
    refine List.map_congr_left fun w _ => ?_
    simp only [Function.comp_apply]
    split <;> rfl
  simp only [killView, statuses]; rfl

theorem killView_completeOp (s : State) (i : Nat) : killView ma (s.completeOp i) = killView ma s := killView_leaveSets ..

theorem killView_mcldDone (s : State) (i : Nat) (status : Word) : killView ma (s.mcldDone i status) = killView ma s := by
  unfold State.mcldDone
  split
  · rfl
  · rw [killView_completeOp]
    split
    · exact killView_modWarp (fun w => by split <;> rfl) ..
    · rfl

theorem killView_mcldsDone {β : Type} (op : β → Nat) (status : β → Word) (l : List β) (s : State) :
    killView ma (l.foldl (fun s b => s.mcldDone (op b) (status b)) s) = killView ma s :=
  killView_foldl (fun s _ => killView_mcldDone s _ _) l s

theorem killView_modPool (s : State) (gi pool : Nat) (f : Pool → Pool) : killView ma (s.modPool gi pool f) = killView ma s := by
  refine killView_modGrid ?_ s gi
  exact fun _ => rfl

/-- Pool loads' holds and reads are not in the view. -/
theorem killView_holds (s : State) (hs : List Hold) : killView ma { s with holds := hs } = killView ma s := rfl
theorem killView_jobs (s : State) (js : List PoolJob) : killView ma { s with jobs := js } = killView ma s := rfl

theorem killView_endHold (s : State) (hi : Nat) (timer : Bool) : killView ma (s.endHold hi timer) = killView ma s := by
  unfold State.endHold
  split
  · rfl
  · split
    · rfl
    · cases timer with
      | false => rfl
      | true => exact (killView_holds ..).trans (killView_modPool ..)

theorem killView_enterHold (s : State) (i wg gi pool asid va n tmo : Nat) : killView ma (s.enterHold i wg gi pool asid va n tmo) = killView ma s := by
  unfold State.enterHold
  dsimp only
  split
  · rfl
  · split
    · rfl
    · split
      · rfl
      · split <;> rfl

theorem killView_admitQueued (s : State) (hi : Nat) : killView ma (s.admitQueued hi) = killView ma s := by
  unfold State.admitQueued
  split
  · rfl
  · refine killView_foldl (fun s i => ?_) ..
    split
    · rfl
    · exact killView_enterHold ..

theorem killView_settleHolds (n : Nat) (s : State) : killView ma (s.settleHolds n) = killView ma s := by
  induction n generalizing s with
  | zero => rfl
  | succ n ih =>
    unfold State.settleHolds
    split
    · rfl
    · rw [ih, killView_admitQueued, killView_endHold]

theorem killView_withdraw (s : State) (wi gi pool : Nat) : killView ma (s.withdraw wi gi pool) = killView ma s := by
  unfold State.withdraw
  dsimp only
  -- from the last change to the first
  refine (killView_jobs ..).trans ?_
  refine (killView_modPool ..).trans ?_
  refine (killView_mcldsDone (fun f : Fill => f.op) ..).trans ?_
  refine (killView_settleHolds ..).trans ?_
  refine (killView_foldl killView_admitQueued ..).trans ?_
  refine (killView_holds ..).trans ?_
  refine (killView_modPool ..).trans ?_
  refine (killView_mcldsDone (fun i : Nat => i) ..).trans ?_
  exact killView_modPool ..

theorem killView_withdrawAll (s : State) (wi : Nat) : killView ma (s.withdrawAll wi) = killView ma s := by
  unfold State.withdrawAll
  split
  · rfl
  · refine killView_foldl (fun s p => ?_) ..
    split
    · split
      · exact killView_withdraw ..
      · rfl
    · rfl

theorem killView_stallDue (s : State) (wi : Nat) (g : Workgroup) (asid : Nat) : killView ma (s.stallDue wi g asid) = killView ma s := by
  unfold State.stallDue
  dsimp only
  split <;> rfl

/-- Nor does the view show whether the workgroup ends with its last warp. -/
theorem killView_lastOfWorkgroup (s : State) (wi : Nat) (f : Workgroup → Workgroup) (g : Workgroup) (asid : Nat) :
    killView ma (if s.wgDone wi then ((s.withdrawAll wi).modWg wi f).stallDue wi g asid else s) = killView ma s := by
  split
  · exact (killView_stallDue ..).trans (killView_withdrawAll s wi)
  · rfl

/-- Of a warp's end the view shows its status alone. -/
theorem killView_endWarp {s : State} {i : Nat} {w : Warp} {g : Workgroup} (hw : s.warps[i]? = some w) (hg : s.wgs[w.wg]? = some g)
    (hr : (s.grids[g.grid]?).isSome = true) (st : WarpStatus) :
    killView ma (s.endWarp i st) = { killView ma s with statuses := (killView ma s).statuses.set i st } := by
  obtain ⟨gr, hr⟩ := Option.isSome_iff_exists.1 hr
  simp only [State.endWarp, hw, hg, hr]
  refine (killView_lastOfWorkgroup ..).trans ?_
  refine (killView_modWg ..).trans ?_
  refine (killView_modWarp_status (st := st) ?_ _ i).trans ?_
  · exact fun _ => rfl
  · exact congrArg (fun v : KillView => { v with statuses := v.statuses.set i st })
      (killView_foldl (fun _ _ => killView_logMem ..) w.recvq (s.dropPriv w g gr))

/-! ### A kill (R169, R381, R384, R385) -/

theorem logErr_tables (s : State) (ws : List Word) :
    (s.logErr ws).warps = s.warps ∧ (s.logErr ws).wgs = s.wgs ∧ (s.logErr ws).grids = s.grids ∧ (s.logErr ws).mem = s.mem := by
  rw [logErr_frame]; exact ⟨rfl, rfl, rfl, rfl⟩

/-- A kill enters its record in the package error log; else the view shows the warp's status and the grid's sticky error. -/
theorem killView_kill {s : State} {i : Nat} {w : Warp} {g : Workgroup} {gr : Grid} (hw : s.warps[i]? = some w) (hg : s.wgs[w.wg]? = some g)
    (hr : s.grids[g.grid]? = some gr) (kind cause : Nat) (info info2 : Word) :
    killView ma (s.kill i kind cause info info2) =
      { killView ma (s.logErr (recordWords kind cause gr.asid g.seq (whereWord g.core (w.index gr.lrec) w.slot) w.pc.toNat info info2)) with
        statuses := (killView ma s).statuses.set i .killed, errors := (killView ma s).errors.set g.grid true } := by
  simp only [State.kill, hw, hg, hr]
  obtain ⟨warps, wgs, grids, -⟩ := logErr_tables s (recordWords kind cause gr.asid g.seq (whereWord g.core (w.index gr.lrec) w.slot) w.pc.toNat info info2)
  rw [killView_endWarp (w := w) (g := g) (by simpa [warps] using hw) (by simpa [wgs] using hg) (by simp [grids, hr]),
    killView_modGrid_error (e := true) fun _ => rfl]
  simp only [killView, warps, grids]

end

/-- The record of a kill, where the error log has room for it. -/
theorem newestError_logErr (s : State) (kind cause asid seq : Nat) (place : Word) (pc : PC) (info info2 : Word) :
    newestError s (s.logErr (recordWords kind cause asid seq place pc.toNat info info2)) kind cause asid pc info info2 := by
  obtain ⟨m, hm, entered, -⟩ := logTo_spec s (wp := 0x3000) (rp := 0x3004) (lost := 0x3008) (base := 0x4000)
    (ws := recordWords kind cause asid seq place pc.toNat info info2) (Nat.le_refl 8) (.inl (by decide))
  intro room
  obtain ⟨wp, words, -⟩ := entered room
  rw [State.logErr, hm]
  exact ⟨wp, words 0 _ rfl, words 3 _ rfl, words 5 _ rfl, words 6 _ rfl⟩

/-- The newest record lies in the view. -/
theorem newestError_of_killView {s t u : State} {kind cause asid : Nat} {pc : PC} {info info2 : Word}
    (h : ∀ ma, (killView ma t).packageReg = (killView ma u).packageReg) (hu : newestError s u kind cause asid pc info info2) :
    newestError s t kind cause asid pc info info2 := by
  have regs : ∀ ma, ma < 0x1000000 → t.reg ma = u.reg ma := fun ma below => h ⟨ma, below⟩
  intro room
  have slot := Nat.mod_lt (s.reg 0x3000).toNat (show 0 < 64 by decide)
  rw [regs _ (by omega), regs _ (by omega), regs _ (by omega), regs _ (by omega), regs _ (by omega)]
  exact hu room

/-- An instruction whose meaning is to kill its warp does all that a kill does. -/
theorem kills_of_exec_eq_kill {i : Instr} {s : State} {c : Ctx} {kind cause : Nat} {info info2 : Word} (hc : s.issuer = some c)
    (he : exec i s = .next (s.kill s.cur kind cause info info2)) : Kills i s c kind cause info info2 := by
  obtain ⟨hw, hg, hr, -⟩ := issuer_all hc
  have view := fun ma => killView_kill (ma := ma) hw hg hr kind cause info info2
  obtain ⟨-, -, -, mem⟩ := logErr_tables s
    (recordWords kind cause c.gr.asid c.g.seq (whereWord c.g.core (c.w.index c.gr.lrec) c.w.slot) c.w.pc.toNat info info2)
  refine ⟨_, he, ?_, ?_, (congrArg KillView.mem (view 0)).trans mem, ?_⟩
  · have statuses : (s.kill s.cur kind cause info info2).warps.map Warp.status = _ := congrArg KillView.statuses (view 0)
    rw [← List.getElem?_map, statuses]
    exact List.getElem?_set_self (by simpa [killView] using (List.getElem?_eq_some_iff.1 hw).1)
  · have errors : (s.kill s.cur kind cause info info2).grids.map Grid.error = _ := congrArg KillView.errors (view 0)
    rw [← List.getElem?_map, errors]
    exact List.getElem?_set_self (by simpa [killView] using (List.getElem?_eq_some_iff.1 hr).1)
  · have record := newestError_logErr s kind cause c.gr.asid c.g.seq (whereWord c.g.core (c.w.index c.gr.lrec) c.w.slot) c.w.pc info info2
    exact newestError_of_killView (fun ma => (congrArg KillView.packageReg (view ma) :)) record

/-! ### Illegal words (R157, R167, R168, R169) -/

/-- Every instruction word's meaning is an issue: legality first, then its effect (R376). -/
theorem exec_eq_issue {i : Instr} (h : i.isWord = true) (s : State) : ∃ k, exec i s = issue i s k := by
  cases i
  -- the 166 words, then the steps of the device
  iterate 166 exact ⟨_, rfl⟩
  all_goals exact nomatch h

theorem issue_illegal {i : Instr} {s : State} {c : Ctx} (hc : s.issuer = some c) (hl : legalAt i c.w c.gr = false) (k : Ctx → State) :
    issue i s k = .next (s.illegal s.cur c.w c.gr (BitVec.ofNat 32 ((encode i).headD 0)) (4 * (encode i).length)) := by
  simp [issue, hc, hl, Instr.size]

/-- An instruction that is an illegal word of n bytes in its warp passes in mode 0 with EMASK = 0, and else kills. -/
theorem passes_or_kills_of_exec_eq_illegal {i : Instr} {s : State} {c : Ctx} {word : Word} {n : Nat} (hc : s.issuer = some c)
    (he : exec i s = .next (s.illegal s.cur c.w c.gr word n)) :
    (c.gr.lrec.legal = false → c.w.emask = 0 → LeavesWarp i s (goesOn c.w n)) ∧
    (c.gr.lrec.legal = true ∨ c.w.emask ≠ 0 → Kills i s c 1 0 word c.w.emask) := by
  refine ⟨fun mode0 noLane => he.trans ?_, fun strict => kills_of_exec_eq_kill hc (he.trans ?_)⟩
  · obtain ⟨hw, -⟩ := issuer_all hc
    have passes : (!c.gr.lrec.legal && c.w.emask == 0) = true := by rw [mode0, noLane]; rfl
    rw [State.illegal, if_pos passes, State.modWarp, modify_some hw]; rfl
  · have kills : ¬(!c.gr.lrec.legal && c.w.emask == 0) = true := by
      rw [Bool.and_eq_true, Bool.not_eq_true', beq_iff_eq]
      rintro ⟨mode0, noLane⟩
      obtain mode1 | lanes := strict
      · exact absurd mode0 (by rw [mode1]; decide)
      · exact lanes noLane
    rw [State.illegal, if_neg kills]

/-- Settles O24: a word of either form comes to `State.illegal`. -/
theorem illegalWordsPassOrKill : Obligations.IllegalWordsPassOrKill := by
  refine ⟨fun i s c isWord hc illegal => ?_, fun w s c hc => ?_⟩
  · obtain ⟨k, hk⟩ := exec_eq_issue isWord s
    exact passes_or_kills_of_exec_eq_illegal hc (hk.trans (issue_illegal hc illegal k))
  · refine passes_or_kills_of_exec_eq_illegal hc ?_
    rw [exec_illegalFirstWord]
    simp only [execIllegalFirstWord, hc]

end Sys2Proof.Claims
end
